-- ==== Sys2Proof/Word.lean ====
section
/-! DEFINITION. The words of chip8_interpreter: bytes, addresses, opcodes, and the indexes an opcode's fields name. -/

namespace Sys2Proof

/-- A byte of memory, a general register, a timer (R20, R21, R50). -/
abbrev Byte := BitVec 8

/-- A 16-bit register that holds an address: I, PC, a call-stack entry (R24, R25, R27). -/
abbrev Addr := BitVec 16

/-- The 16-bit instruction word (R70, R71). -/
abbrev Opcode := BitVec 16

/-- The number of a general register, an X or Y field after decoding (R21, R73). -/
abbrev Reg := Fin 16

/-- The number of a logical key (R31). -/
abbrev Key := Fin 16

/-- `VF`, register 15, which is also the flag (R22). -/
abbrev vF : Reg := 15

/-- `V0`, which BNNN reads implicitly (R126). -/
abbrev v0 : Reg := 0

end Sys2Proof
end

