-- ==== Sys2Proof/Config.lean ====
section
/-! DEFINITION. The configuration of R7, the constants of R7, and the one free value of the spec (R172). -/

namespace Sys2Proof

/-- The Variant Policy (R2): ORIGINAL is CHIP-8, EXTENDED is SUPER-CHIP, for the opcodes that differ (R3). -/
inductive Variant where
  | original
  | extended
  deriving DecidableEq, Repr

/-- `UNKNOWN_OPCODE_POLICY` (R7): what an unmatched opcode does (R97). -/
inductive UnknownPolicy where
  | nop
  | fault
  deriving DecidableEq, Repr

/-- The parameters of R7.  They are fixed for the life of a loaded program (R7, R35): no step and no frame tick writes them, and a
load sets the variant only. -/
structure Config where
  /-- `VARIANT`, chosen by the loader's caller. -/
  variant : Variant
  /-- `STACK_CAPACITY`, 12 to 16. -/
  stackCapacity : Nat
  /-- `UNKNOWN_OPCODE_POLICY`. -/
  unknownPolicy : UnknownPolicy
  /-- `FONT`, the 80 bytes of the glyph table. -/
  font : Vector Byte 80
  /-- `IPF`, the steps of a frame tick, at least 1 and otherwise open (R285, notes/assumptions/5). -/
  ipf : Nat
  deriving DecidableEq, Repr

/-- `MEM_SIZE` (R7). -/
abbrev memSize : Nat := 4096

/-- `ROM_BASE` (R7). -/
abbrev romBase : Nat := 512

/-- `ROM_MAX` (R7). -/
abbrev romMax : Nat := 3584

/-- `FONT_BYTES` (R7). -/
abbrev fontBytes : Nat := 80

/-- `DISP_W` (R7). -/
abbrev dispW : Nat := 64

/-- `DISP_H` (R7). -/
abbrev dispH : Nat := 32

/-- FREE VALUE.  The byte that the draw of the given number yields: `draw_random_byte()` of R11, a free 8-bit input of the step under
no law (R172).  It has no body, so nothing can be proved of its value (notes/assumptions/4). -/
opaque Config.randomByte : Nat → Byte

end Sys2Proof
end

