-- ==== Sys2Proof/Syntax.lean ====
section
/-! DEFINITION. The 34 instructions of the opcode map (R80), one constructor per row of spec/opcode_table.json.
Operands are the fields of R72: `x` and `y` register numbers, `nn` an immediate byte, `nnn` an absolute address, `n` a count 0..15. -/

namespace Sys2Proof

/-- An instruction (R74, R80).  An opcode that no row matches is no instruction (R84). -/
inductive Instr where
  /-- 00E0 `CLS`: clear the display (R210). -/
  | cls
  /-- 00EE `RET`: return from subroutine (R110). -/
  | ret
  /-- 1NNN `JP nnn`: jump (R111). -/
  | jp (nnn : BitVec 12)
  /-- 2NNN `CALL nnn`: call subroutine (R112). -/
  | call (nnn : BitVec 12)
  /-- 3XNN `SE Vx, nn`: skip if equal to immediate (R115). -/
  | seImm (x : Reg) (nn : Byte)
  /-- 4XNN `SNE Vx, nn`: skip if not equal to immediate (R116). -/
  | sneImm (x : Reg) (nn : Byte)
  /-- 5XY0 `SE Vx, Vy`: skip if registers equal (R117). -/
  | seReg (x y : Reg)
  /-- 6XNN `LD Vx, nn`: load immediate (R145). -/
  | ldImm (x : Reg) (nn : Byte)
  /-- 7XNN `ADD Vx, nn`: add immediate (R146). -/
  | addImm (x : Reg) (nn : Byte)
  /-- 8XY0 `LD Vx, Vy`: copy register (R150). -/
  | ldReg (x y : Reg)
  /-- 8XY1 `OR Vx, Vy` (R151). -/
  | orReg (x y : Reg)
  /-- 8XY2 `AND Vx, Vy` (R152). -/
  | andReg (x y : Reg)
  /-- 8XY3 `XOR Vx, Vy` (R153). -/
  | xorReg (x y : Reg)
  /-- 8XY4 `ADD Vx, Vy`: add with carry (R155). -/
  | addReg (x y : Reg)
  /-- 8XY5 `SUB Vx, Vy`: X minus Y (R156). -/
  | sub (x y : Reg)
  /-- 8XY6 `SHR Vx, Vy`: shift right by one (R158). -/
  | shr (x y : Reg)
  /-- 8XY7 `SUBN Vx, Vy`: Y minus X (R157). -/
  | subn (x y : Reg)
  /-- 8XYE `SHL Vx, Vy`: shift left by one (R159). -/
  | shl (x y : Reg)
  /-- 9XY0 `SNE Vx, Vy`: skip if registers not equal (R118). -/
  | sneReg (x y : Reg)
  /-- ANNN `LD I, nnn`: load index (R180). -/
  | ldI (nnn : BitVec 12)
  /-- BNNN `JP V0, nnn`: jump to nnn plus V0 (R126). -/
  | jpV0 (nnn : BitVec 12)
  /-- CXNN `RND Vx, nn`: random byte masked (R170). -/
  | rnd (x : Reg) (nn : Byte)
  /-- DXYN `DRW Vx, Vy, n`: draw sprite (R215). -/
  | drw (x y : Reg) (n : Fin 16)
  /-- EX9E `SKP Vx`: skip if key pressed (R230). -/
  | skp (x : Reg)
  /-- EXA1 `SKNP Vx`: skip if key not pressed (R231). -/
  | sknp (x : Reg)
  /-- FX07 `LD Vx, DT`: read delay timer (R236). -/
  | ldVxDT (x : Reg)
  /-- FX0A `LD Vx, K`: wait for a key (R241). -/
  | ldVxK (x : Reg)
  /-- FX15 `LD DT, Vx`: set delay timer (R237). -/
  | ldDTVx (x : Reg)
  /-- FX18 `LD ST, Vx`: set sound timer (R238). -/
  | ldSTVx (x : Reg)
  /-- FX1E `ADD I, Vx`: add register to index (R182). -/
  | addI (x : Reg)
  /-- FX29 `LD F, Vx`: point index at a font glyph (R186). -/
  | ldF (x : Reg)
  /-- FX33 `LD B, Vx`: store BCD (R188). -/
  | ldB (x : Reg)
  /-- FX55 `LD [I], Vx`: store registers V0..Vx (R190). -/
  | ldMemVx (x : Reg)
  /-- FX65 `LD Vx, [I]`: load registers V0..Vx (R192). -/
  | ldVxMem (x : Reg)
  deriving DecidableEq, Repr

end Sys2Proof
end

