-- ==== Sys2Proof/WellFormed.lean ====
section
/-! DEFINITION. Well-formed operands, instructions, configurations and ROM images. -/

namespace Sys2Proof

/-- The operand fields of an opcode (R72). -/
inductive Field where
  | X
  | Y
  | N
  | NN
  | NNN
  deriving DecidableEq, Repr

/-- The width of a field in bits (R72). -/
def Field.width : Field → Nat
  | .X => 4
  | .Y => 4
  | .N => 4
  | .NN => 8
  | .NNN => 12

/-- An operand as plain data: a field and the unsigned value in it (R73). -/
structure Operand where
  field : Field
  value : Nat
  deriving DecidableEq, Repr

/-- An operand's value fits its field's width. -/
def Operand.WellFormed (o : Operand) : Bool := decide (o.value < 2 ^ o.field.width)

/-- The operands of an instruction, by the forms of R74. -/
def Instr.operands : Instr → List Operand
  | .cls => []
  | .ret => []
  | .jp nnn => [⟨.NNN, nnn.toNat⟩]
  | .call nnn => [⟨.NNN, nnn.toNat⟩]
  | .seImm x nn => [⟨.X, x.val⟩, ⟨.NN, nn.toNat⟩]
  | .sneImm x nn => [⟨.X, x.val⟩, ⟨.NN, nn.toNat⟩]
  | .seReg x y => [⟨.X, x.val⟩, ⟨.Y, y.val⟩]
  | .ldImm x nn => [⟨.X, x.val⟩, ⟨.NN, nn.toNat⟩]
  | .addImm x nn => [⟨.X, x.val⟩, ⟨.NN, nn.toNat⟩]
  | .ldReg x y => [⟨.X, x.val⟩, ⟨.Y, y.val⟩]
  | .orReg x y => [⟨.X, x.val⟩, ⟨.Y, y.val⟩]
  | .andReg x y => [⟨.X, x.val⟩, ⟨.Y, y.val⟩]
  | .xorReg x y => [⟨.X, x.val⟩, ⟨.Y, y.val⟩]
  | .addReg x y => [⟨.X, x.val⟩, ⟨.Y, y.val⟩]
  | .sub x y => [⟨.X, x.val⟩, ⟨.Y, y.val⟩]
  | .shr x y => [⟨.X, x.val⟩, ⟨.Y, y.val⟩]
  | .subn x y => [⟨.X, x.val⟩, ⟨.Y, y.val⟩]
  | .shl x y => [⟨.X, x.val⟩, ⟨.Y, y.val⟩]
  | .sneReg x y => [⟨.X, x.val⟩, ⟨.Y, y.val⟩]
  | .ldI nnn => [⟨.NNN, nnn.toNat⟩]
  | .jpV0 nnn => [⟨.NNN, nnn.toNat⟩]
  | .rnd x nn => [⟨.X, x.val⟩, ⟨.NN, nn.toNat⟩]
  | .drw x y n => [⟨.X, x.val⟩, ⟨.Y, y.val⟩, ⟨.N, n.val⟩]
  | .skp x => [⟨.X, x.val⟩]
  | .sknp x => [⟨.X, x.val⟩]
  | .ldVxDT x => [⟨.X, x.val⟩]
  | .ldVxK x => [⟨.X, x.val⟩]
  | .ldDTVx x => [⟨.X, x.val⟩]
  | .ldSTVx x => [⟨.X, x.val⟩]
  | .addI x => [⟨.X, x.val⟩]
  | .ldF x => [⟨.X, x.val⟩]
  | .ldB x => [⟨.X, x.val⟩]
  | .ldMemVx x => [⟨.X, x.val⟩]
  | .ldVxMem x => [⟨.X, x.val⟩]

/-- Every operand fits its field.  The operand types of `Instr` have exactly the widths of R72, so every instruction meets this
(Sys2Proof.Laws.FieldsFit); the check bites on plain operands. -/
def Instr.WellFormed (i : Instr) : Bool := i.operands.all Operand.WellFormed

/-- The configuration is one R7 allows: `STACK_CAPACITY` is 12 to 16, and `IPF` is at least 1. -/
def Config.WellFormed (c : Config) : Bool := decide (12 ≤ c.stackCapacity ∧ c.stackCapacity ≤ 16 ∧ 1 ≤ c.ipf)

/-- A ROM image fits the memory above `ROM_BASE` (R300). -/
def romFits (rom : List Byte) : Bool := decide (rom.length ≤ romMax)

end Sys2Proof
end

