-- ==== Sys2Proof/Decode.lean ====
section
/-! DEFINITION. The decoder (R80), total on any opcode and any bytes, and the encoder, both written from the opcode map. -/

namespace Sys2Proof

/-! ## Field extraction (R72) -/

/-- `T = op[15:12]`, the primary opcode. -/
def opT (op : Opcode) : BitVec 4 := op.extractLsb' 12 4

/-- `X = op[11:8]`. -/
def opX (op : Opcode) : Reg := (op.extractLsb' 8 4).toFin

/-- `Y = op[7:4]`. -/
def opY (op : Opcode) : Reg := (op.extractLsb' 4 4).toFin

/-- `N = op[3:0]`. -/
def opN (op : Opcode) : Fin 16 := (op.extractLsb' 0 4).toFin

/-- `NN = op[7:0]`. -/
def opNN (op : Opcode) : Byte := op.extractLsb' 0 8

/-- `NNN = op[11:0]`. -/
def opNNN (op : Opcode) : BitVec 12 := op.extractLsb' 0 12

/-! ## The opcode map (R80) -/

/-- A row of the opcode map: it applies when `op & mask = pattern` (the map's column `match`), and `build` reads its operand fields. -/
structure OpRow where
  mask : Opcode
  pattern : Opcode
  build : Opcode → Instr

/-- The row applies to the opcode (R80). -/
def OpRow.applies (r : OpRow) (op : Opcode) : Bool := (op &&& r.mask) == r.pattern

/-- Rows 00E0 to 7XNN of R80. -/
def rowsFlow : List OpRow :=
  [⟨0xFFFF, 0x00E0, fun _ => .cls⟩,
   ⟨0xFFFF, 0x00EE, fun _ => .ret⟩,
   ⟨0xF000, 0x1000, fun op => .jp (opNNN op)⟩,
   ⟨0xF000, 0x2000, fun op => .call (opNNN op)⟩,
   ⟨0xF000, 0x3000, fun op => .seImm (opX op) (opNN op)⟩,
   ⟨0xF000, 0x4000, fun op => .sneImm (opX op) (opNN op)⟩,
   ⟨0xF00F, 0x5000, fun op => .seReg (opX op) (opY op)⟩,
   ⟨0xF000, 0x6000, fun op => .ldImm (opX op) (opNN op)⟩,
   ⟨0xF000, 0x7000, fun op => .addImm (opX op) (opNN op)⟩]

/-- Rows 8XY0 to 9XY0 of R80. -/
def rowsAlu : List OpRow :=
  [⟨0xF00F, 0x8000, fun op => .ldReg (opX op) (opY op)⟩,
   ⟨0xF00F, 0x8001, fun op => .orReg (opX op) (opY op)⟩,
   ⟨0xF00F, 0x8002, fun op => .andReg (opX op) (opY op)⟩,
   ⟨0xF00F, 0x8003, fun op => .xorReg (opX op) (opY op)⟩,
   ⟨0xF00F, 0x8004, fun op => .addReg (opX op) (opY op)⟩,
   ⟨0xF00F, 0x8005, fun op => .sub (opX op) (opY op)⟩,
   ⟨0xF00F, 0x8006, fun op => .shr (opX op) (opY op)⟩,
   ⟨0xF00F, 0x8007, fun op => .subn (opX op) (opY op)⟩,
   ⟨0xF00F, 0x800E, fun op => .shl (opX op) (opY op)⟩,
   ⟨0xF00F, 0x9000, fun op => .sneReg (opX op) (opY op)⟩]

/-- Rows ANNN to EXA1 of R80. -/
def rowsMisc : List OpRow :=
  [⟨0xF000, 0xA000, fun op => .ldI (opNNN op)⟩,
   ⟨0xF000, 0xB000, fun op => .jpV0 (opNNN op)⟩,
   ⟨0xF000, 0xC000, fun op => .rnd (opX op) (opNN op)⟩,
   ⟨0xF000, 0xD000, fun op => .drw (opX op) (opY op) (opN op)⟩,
   ⟨0xF0FF, 0xE09E, fun op => .skp (opX op)⟩,
   ⟨0xF0FF, 0xE0A1, fun op => .sknp (opX op)⟩]

/-- Rows FX07 to FX65 of R80. -/
def rowsFunction : List OpRow :=
  [⟨0xF0FF, 0xF007, fun op => .ldVxDT (opX op)⟩,
   ⟨0xF0FF, 0xF00A, fun op => .ldVxK (opX op)⟩,
   ⟨0xF0FF, 0xF015, fun op => .ldDTVx (opX op)⟩,
   ⟨0xF0FF, 0xF018, fun op => .ldSTVx (opX op)⟩,
   ⟨0xF0FF, 0xF01E, fun op => .addI (opX op)⟩,
   ⟨0xF0FF, 0xF029, fun op => .ldF (opX op)⟩,
   ⟨0xF0FF, 0xF033, fun op => .ldB (opX op)⟩,
   ⟨0xF0FF, 0xF055, fun op => .ldMemVx (opX op)⟩,
   ⟨0xF0FF, 0xF065, fun op => .ldVxMem (opX op)⟩]

/-- The opcode map of R80: 34 rows. -/
def opcodeMap : List OpRow := rowsFlow ++ rowsAlu ++ rowsMisc ++ rowsFunction

/-- Why a word or a byte string is no instruction. -/
inductive DecodeError where
  /-- No row of the opcode map matches the opcode (R84).  What the engine does with it is R97. -/
  | unmatched (op : Opcode)
  /-- Fewer than two bytes: there is no whole opcode (R70). -/
  | truncated
  deriving DecidableEq, Repr

/-- The decoder (R80, R93): the row of the map that applies, or unmatched. -/
def decode (op : Opcode) : Except DecodeError Instr :=
  match opcodeMap.find? (fun r => r.applies op) with
  | some r => .ok (r.build op)
  | none => .error (.unmatched op)

/-- Two bytes as an opcode, big-endian: the first (lower address) is bits 15:8 (R55; PRESUMED, notes/assumptions/7). -/
def opcodeOfBytes (hi lo : Byte) : Opcode := hi ++ lo

/-- The byte of an opcode at the lower address, bits 15:8 (R55). -/
def opcodeHi (op : Opcode) : Byte := op.extractLsb' 8 8

/-- The byte of an opcode at the higher address, bits 7:0 (R55). -/
def opcodeLo (op : Opcode) : Byte := op.extractLsb' 0 8

/-- Decode the first instruction of a byte string, with the bytes that follow it. -/
def decodeBytes : List Byte → Except DecodeError (Instr × List Byte)
  | hi :: lo :: rest =>
    match decode (opcodeOfBytes hi lo) with
    | .ok i => .ok (i, rest)
    | .error e => .error e
  | _ => .error .truncated

/-! ## The encoder -/

/-- The address form of R74: `T NNN`. -/
def wordNNN (t : BitVec 4) (nnn : BitVec 12) : Opcode := t ++ nnn

/-- The register-immediate form of R74: `T X NN`. -/
def wordXNN (t : BitVec 4) (x : Reg) (nn : Byte) : Opcode :=
  t ++ (BitVec.ofFin x : BitVec 4) ++ nn

/-- The register-register and sprite forms of R74: `T X Y N`. -/
def wordXYN (t : BitVec 4) (x y : Reg) (n : BitVec 4) : Opcode :=
  t ++ (BitVec.ofFin x : BitVec 4) ++ (BitVec.ofFin y : BitVec 4) ++ n

/-- The opcode of an instruction, from the patterns of R80. -/
def encode : Instr → Opcode
  | .cls => 0x00E0
  | .ret => 0x00EE
  | .jp nnn => wordNNN 0x1 nnn
  | .call nnn => wordNNN 0x2 nnn
  | .seImm x nn => wordXNN 0x3 x nn
  | .sneImm x nn => wordXNN 0x4 x nn
  | .seReg x y => wordXYN 0x5 x y 0x0
  | .ldImm x nn => wordXNN 0x6 x nn
  | .addImm x nn => wordXNN 0x7 x nn
  | .ldReg x y => wordXYN 0x8 x y 0x0
  | .orReg x y => wordXYN 0x8 x y 0x1
  | .andReg x y => wordXYN 0x8 x y 0x2
  | .xorReg x y => wordXYN 0x8 x y 0x3
  | .addReg x y => wordXYN 0x8 x y 0x4
  | .sub x y => wordXYN 0x8 x y 0x5
  | .shr x y => wordXYN 0x8 x y 0x6
  | .subn x y => wordXYN 0x8 x y 0x7
  | .shl x y => wordXYN 0x8 x y 0xE
  | .sneReg x y => wordXYN 0x9 x y 0x0
  | .ldI nnn => wordNNN 0xA nnn
  | .jpV0 nnn => wordNNN 0xB nnn
  | .rnd x nn => wordXNN 0xC x nn
  | .drw x y n => wordXYN 0xD x y (BitVec.ofFin n)
  | .skp x => wordXNN 0xE x 0x9E
  | .sknp x => wordXNN 0xE x 0xA1
  | .ldVxDT x => wordXNN 0xF x 0x07
  | .ldVxK x => wordXNN 0xF x 0x0A
  | .ldDTVx x => wordXNN 0xF x 0x15
  | .ldSTVx x => wordXNN 0xF x 0x18
  | .addI x => wordXNN 0xF x 0x1E
  | .ldF x => wordXNN 0xF x 0x29
  | .ldB x => wordXNN 0xF x 0x33
  | .ldMemVx x => wordXNN 0xF x 0x55
  | .ldVxMem x => wordXNN 0xF x 0x65

/-- An instruction's bytes as memory holds them (R55). -/
def encodeBytes (i : Instr) : List Byte := [opcodeHi (encode i), opcodeLo (encode i)]

/-! ## The host's question -/

/-- The opcode whose bits are the low `nbits` bits of `w`; the bits above are 0. -/
def tableOpcode (nbits w : Nat) : Opcode := BitVec.ofNat 16 (w % 2 ^ nbits)

/-- The instruction the decoder reads from the bytes of the opcode-table word `w`, laid out as memory holds them. -/
def decodeTableWord (nbits w : Nat) : Option Instr :=
  match decodeBytes [opcodeHi (tableOpcode nbits w), opcodeLo (tableOpcode nbits w)] with
  | .ok (i, _) => some i
  | .error _ => none

end Sys2Proof
end

