-- ==== Sys2Proof/Machine/Defaults.lean ====
section
/-! DEFINITION. The default configuration of R7, with the default font table of R54. -/

namespace Sys2Proof.Machine

/-- Glyphs 0 to 7 of the default FONT (R54; the bytes are PRESUMED, notes/assumptions/8). -/
def fontGlyphsLow : List Byte :=
  [0xF0, 0x90, 0x90, 0x90, 0xF0] ++ [0x20, 0x60, 0x20, 0x20, 0x70] ++
  [0xF0, 0x10, 0xF0, 0x80, 0xF0] ++ [0xF0, 0x10, 0xF0, 0x10, 0xF0] ++
  [0x90, 0x90, 0xF0, 0x10, 0x10] ++ [0xF0, 0x80, 0xF0, 0x10, 0xF0] ++
  [0xF0, 0x80, 0xF0, 0x90, 0xF0] ++ [0xF0, 0x10, 0x20, 0x40, 0x40]

/-- Glyphs 8 to F of the default FONT (R54). -/
def fontGlyphsHigh : List Byte :=
  [0xF0, 0x90, 0xF0, 0x90, 0xF0] ++ [0xF0, 0x90, 0xF0, 0x10, 0xF0] ++
  [0xF0, 0x90, 0xF0, 0x90, 0x90] ++ [0xE0, 0x90, 0xE0, 0x90, 0xE0] ++
  [0xF0, 0x80, 0x80, 0x80, 0xF0] ++ [0xE0, 0x90, 0x90, 0x90, 0xE0] ++
  [0xF0, 0x80, 0xF0, 0x80, 0xF0] ++ [0xF0, 0x80, 0xF0, 0x80, 0x80]

/-- The default FONT as the 80 bytes of R7. -/
def defaultFont : Vector Byte 80 := ⟨(fontGlyphsLow ++ fontGlyphsHigh).toArray, rfl⟩

/-- The configuration State.reset stands for: the defaults of R7, the variant ORIGINAL, which the spec leaves to the loader's
caller (DESIGN CHOICE, notes/assumptions/3), and the open IPF at its least value (DESIGN CHOICE, notes/assumptions/5). -/
def defaultConfig : Config where
  variant := .original
  stackCapacity := 16
  unknownPolicy := .nop
  font := defaultFont
  ipf := 1

end Sys2Proof.Machine
end

