-- ==== Sys2Proof/Machine/State.lean ====
section
/-! DEFINITION. The state of the block (R20), its faults, and the state after a load (R39). -/

namespace Sys2Proof.Machine

/-- Memory as plain data: address and byte pairs, addresses strictly rising, no pair equal to what an unlisted address reads as
(R50, R39; notes/assumptions/2). -/
abbrev Memory := List Host.Cell

/-- The display buffer: 32 rows of 64 cells, `DISP[y][x]` (R29). -/
abbrev Display := Vector (Vector Bool 64) 32

/-- The engine sub-state `SUB` (R33). -/
inductive SubState where
  /-- The engine fetches at PC. -/
  | running
  /-- FX0A with register x has executed and no key is latched. -/
  | awaitKeyPress (x : Reg)
  /-- Key k is latched and the engine waits for its release. -/
  | awaitKeyRelease (x : Reg) (k : Key)
  deriving DecidableEq, Repr

/-- The fault causes of R260. -/
inductive Cause where
  | fetchOutOfRange
  | stackOverflow
  | stackUnderflow
  | memoryOutOfRange
  | indexOverflow
  | keyIndexOutOfRange
  | unknownOpcode
  deriving DecidableEq, Repr

/-- The fault record of R260. -/
structure FaultRecord where
  cause : Cause
  /-- The address of the faulting opcode, or of the failed fetch. -/
  pc : Addr
  /-- The opcode; none for a failed fetch. -/
  opcode : Option Opcode
  /-- The address or key index that R260's column `addr` names. -/
  addr : Option Nat
  deriving DecidableEq, Repr

/-- The state of the block (R20), the configuration it was loaded with (R7, R35), and the model's own draw counter. -/
structure State where
  /-- `MEM` (R50). -/
  mem : Memory
  /-- `V[0..15]` (R21). -/
  v : Vector Byte 16
  /-- `I` (R24). -/
  index : Addr
  /-- `PC` (R25). -/
  pc : Addr
  /-- `STK` (R27): entries 0 to STACK_CAPACITY-1 are in use. -/
  stk : Vector Addr 16
  /-- `SP`, the call-stack depth (R27). -/
  sp : Nat
  /-- `DISP` (R29). -/
  disp : Display
  /-- `KEY` (R31). -/
  key : Vector Bool 16
  /-- `DT` (R32). -/
  dt : Byte
  /-- `ST` (R32). -/
  st : Byte
  /-- `REDRAW` (R30). -/
  redraw : Bool
  /-- `SUB` (R33). -/
  sub : SubState
  /-- `TONE` (R32, R281). -/
  tone : Bool
  /-- `FAULT` (R34). -/
  fault : Option FaultRecord
  /-- The configuration, read-only to every step (R35; notes/assumptions/1). -/
  cfg : Config
  /-- The model's own: how many random bytes have been drawn (R172; notes/assumptions/4). -/
  draws : Nat
  deriving DecidableEq, Repr

/-- Why a step stops with a fault. -/
inductive Fault where
  /-- Raised by `step` when `FAULT` is not none: no step is enabled and the state stays as it is (R90, R266).  SAFE: nothing is
  claimed of a step the spec does not enable. -/
  | halted (r : FaultRecord)
  deriving DecidableEq, Repr

/-- Why a step is refused. -/
inductive Refusal where
  /-- Raised by `exec`'s arm of an instruction that has no meaning yet; no arm raises it now.  SAFE. -/
  | notModelled (mnemonic : String)
  deriving DecidableEq, Repr

/-- The outcome of a step or an instruction. -/
abbrev Result := Host.Outcome State Fault Refusal

/-- The machine right after reset (R39): a load of an empty ROM (R300, R301) with the default configuration.  Memory lists nothing,
since an unlisted address reads as its content after load. -/
def State.reset : State where
  mem := []
  v := Vector.replicate 16 0
  index := 0
  pc := 0x200
  stk := Vector.replicate 16 0
  sp := 0
  disp := Vector.replicate 32 (Vector.replicate 64 false)
  key := Vector.replicate 16 false
  dt := 0
  st := 0
  redraw := false
  sub := .running
  tone := false
  fault := none
  cfg := defaultConfig
  draws := 0

end Sys2Proof.Machine
end

