-- ==== Sys2Proof/Machine/Ops.lean ====
section
/-! DEFINITION. The named operations over memory, registers, the call stack, the display and the keypad, and the one operation that
takes a fault (R265).  There is no return from a fault (R267). -/

namespace Sys2Proof.Machine

/-! ## Memory (R50 to R63) -/

/-- What an unlisted address reads as: its content after a load of an empty ROM, the font table in 0..79 and 0 above (R39, R52). -/
def Memory.unlisted (font : Vector Byte 80) (a : Nat) : Byte :=
  if h : a < 80 then font[a] else 0

/-- The byte at an address (R10). -/
def Memory.read (font : Vector Byte 80) (m : Memory) (a : Nat) : Byte :=
  match m with
  | [] => Memory.unlisted font a
  | (k, b) :: rest => if k = a then b else Memory.read font rest a

/-- List the byte at the address, in place or in order. -/
def Memory.insert (m : Memory) (a : Nat) (b : Byte) : Memory :=
  match m with
  | [] => [(a, b)]
  | (k, c) :: rest =>
    if a < k then (a, b) :: (k, c) :: rest
    else if a = k then (a, b) :: rest
    else (k, c) :: Memory.insert rest a b

/-- Unlist the address. -/
def Memory.erase (m : Memory) (a : Nat) : Memory :=
  match m with
  | [] => []
  | (k, c) :: rest => if k = a then rest else (k, c) :: Memory.erase rest a

/-- Write one byte (R10), keeping the canonical form. -/
def Memory.write (font : Vector Byte 80) (m : Memory) (a : Nat) (b : Byte) : Memory :=
  if b = Memory.unlisted font a then Memory.erase m a else Memory.insert m a b

/-- The canonical form: addresses inside the memory and strictly rising, no cell equal to what its address reads as unlisted. -/
def Memory.wf (font : Vector Byte 80) (m : Memory) : Bool :=
  match m with
  | [] => true
  | (k, b) :: rest =>
    decide (k < memSize) && (b != Memory.unlisted font k) && rest.all (fun c => decide (k < c.1)) &&
      Memory.wf font rest

/-- `MEM[a]`. -/
def State.readMem (s : State) (a : Nat) : Byte := Memory.read s.cfg.font s.mem a

/-- `MEM[a] <- b`. -/
def State.writeMem (s : State) (a : Nat) (b : Byte) : State :=
  { s with mem := Memory.write s.cfg.font s.mem a b }

/-- Write bytes at consecutive ascending addresses, one at a time (R56). -/
def State.writeBytes (s : State) (a : Nat) : List Byte → State
  | [] => s
  | b :: rest => State.writeBytes (s.writeMem a b) (a + 1) rest

/-! ## Registers -/

/-- `V[x]` (R9, R21). -/
def State.reg (s : State) (x : Reg) : Byte := s.v[x.val]

/-- `V[x] <- b` (R9). -/
def State.setReg (s : State) (x : Reg) (b : Byte) : State := { s with v := s.v.set x.val b }

/-- `I <- a`. -/
def State.setIndex (s : State) (a : Addr) : State := { s with index := a }

/-- `PC <- a`. -/
def State.setPc (s : State) (a : Addr) : State := { s with pc := a }

/-- The advance of PC past the fetched opcode (R92). -/
def State.advance (s : State) : State := s.setPc (s.pc + 2)

/-- A skip: 2 more (R114). -/
def State.skipIf (s : State) (c : Bool) : State := if c then s.setPc (s.pc + 2) else s

/-- `DT <- b`. -/
def State.setDT (s : State) (b : Byte) : State := { s with dt := b }

/-- `ST <- b`. -/
def State.setST (s : State) (b : Byte) : State := { s with st := b }

/-- `SUB <- b`. -/
def State.setSub (s : State) (b : SubState) : State := { s with sub := b }

/-- One random byte is taken: the next draw is another one (R172). -/
def State.tickDraw (s : State) : State := { s with draws := s.draws + 1 }

/-! ## Call stack (R27, R28) -/

/-- `STK[j]`; an index past the held entries, which no rule reads, gives 0. -/
def State.stackEntry (s : State) (j : Nat) : Addr := s.stk[j]?.getD 0

/-- `STK[SP] <- a; SP <- SP + 1`, the effect of Push (R28). -/
def State.push (s : State) (a : Addr) : State := { s with stk := s.stk.setIfInBounds s.sp a, sp := s.sp + 1 }

/-- `SP <- SP - 1`, the effect of Pop; the popped value stays in its entry (R28). -/
def State.pop (s : State) : State := { s with sp := s.sp - 1 }

/-! ## Display (R29, R30) -/

/-- `DISP[y][x]`; no cell lies outside the 32 rows and 64 columns. -/
def Display.pixel (d : Display) (y x : Nat) : Bool :=
  if h : y < 32 ∧ x < 64 then (d[y]'h.1)[x]'h.2 else false

/-- `DISP[y][x] <- b`. -/
def Display.setPixel (d : Display) (y x : Nat) (b : Bool) : Display :=
  if h : y < 32 ∧ x < 64 then d.set y ((d[y]'h.1).set x b h.2) h.1 else d

/-- Every cell unlit. -/
def Display.blank : Display := Vector.replicate 32 (Vector.replicate 64 false)

/-- The display is replaced and marked for redraw (R30). -/
def State.setDisplay (s : State) (d : Display) : State := { s with disp := d, redraw := true }

/-! ## Keypad (R31) -/

/-- `KEY[k]`. -/
def State.keyDown (s : State) (k : Key) : Bool := s.key[k.val]

/-- The lowest pressed key of the keypad snapshot, if any (R98). -/
def State.lowestPressed (s : State) : Option Key := (List.finRange 16).find? (fun k => s.keyDown k)

/-! ## Taking a fault (R265) -/

/-- The code of a cause (R260). -/
def Cause.code : Cause → Nat
  | .fetchOutOfRange => 1
  | .stackOverflow => 2
  | .stackUnderflow => 3
  | .memoryOutOfRange => 4
  | .indexOverflow => 5
  | .keyIndexOutOfRange => 6
  | .unknownOpcode => 7

/-- Fault entry (R265), taken on the state before the step, whose PC is pc0: `FAULT` is set, PC is pc0, and every other component is
as it was before the step.  The machine goes on in a next state, which is halted (R266). -/
def raiseFault (s : State) (cause : Cause) (opcode : Option Opcode) (addr : Option Nat) : Result :=
  .next { s with fault := some ⟨cause, s.pc, opcode, addr⟩, pc := s.pc }

end Sys2Proof.Machine
end

