-- ==== Sys2Proof/Machine/Operands.lean ====
section
/-! DEFINITION. Operand assembly (R73), the data addressing mode (R195) and the checks before effect (R58, R96). -/

namespace Sys2Proof.Machine

/-- An address field as a 16-bit value, zero-extended (R73). -/
def addrOf (nnn : BitVec 12) : Addr := nnn.setWidth 16

/-- A register byte as a 16-bit value, zero-extended (R73). -/
def wordOf (b : Byte) : Addr := b.setWidth 16

/-- The effective address `I + offset`, over the integers (R195, R58). -/
def State.dataAddr (s : State) (offset : Nat) : Nat := s.index.toNat + offset

/-- The first address above 4095 among `I, I+1, ...` (R188). -/
def State.firstBadAddr (s : State) : Nat := max s.index.toNat memSize

/-- The registers V0..VX in ascending order (R190, R192). -/
def regsUpTo (x : Reg) : List Reg := (List.finRange 16).take (x.val + 1)

/-- The source of a shift: `V[Y]` under ORIGINAL, `V[X]` under EXTENDED (R158, R159). -/
def State.shiftSource (s : State) (x y : Reg) : Byte :=
  match s.cfg.variant with
  | .original => s.reg y
  | .extended => s.reg x

/-- `I` after FX55 or FX65 of register x: `I + X + 1` under ORIGINAL, unchanged under EXTENDED (R190, R192). -/
def State.indexAfterTransfer (s : State) (x : Reg) : Addr :=
  match s.cfg.variant with
  | .original => s.index + BitVec.ofNat 16 (x.val + 1)
  | .extended => s.index

/-- The three decimal digits of a byte: hundreds, tens, ones (R188). -/
def bcdDigits (a : Byte) : List Byte :=
  [BitVec.ofNat 8 (a.toNat / 100), BitVec.ofNat 8 (a.toNat / 10 % 10), BitVec.ofNat 8 (a.toNat % 10)]

/-- Run `k` if the addresses `I .. I + last` are all in memory, else take MemoryOutOfRange before any effect (R58, R96). -/
def State.guardData (s : State) (op : Opcode) (last : Nat) (k : Result) : Result :=
  if s.dataAddr last ≤ 4095 then k
  else raiseFault s .memoryOutOfRange (some op) (some s.firstBadAddr)

end Sys2Proof.Machine
end

