-- ==== Sys2Proof/Machine/Flags.lean ====
section
/-! DEFINITION. The flag computations (R22) and the order of result and flag writes (R141). -/

namespace Sys2Proof.Machine

/-- A flag as the byte VF takes: 1 or 0. -/
def flagByte (c : Bool) : Byte := if c then 1 else 0

/-- Carry of `a + b` (R155). -/
def carryFlag (a b : Byte) : Bool := decide (a.toNat + b.toNat > 255)

/-- Not borrow of `a - b` (R156, R157). -/
def notBorrowFlag (a b : Byte) : Bool := decide (a.toNat ≥ b.toNat)

/-- The bit a right shift moves out, bit 0 (R158). -/
def lowBitFlag (a : Byte) : Bool := a.getLsbD 0

/-- The bit a left shift moves out, bit 7 (R159). -/
def highBitFlag (a : Byte) : Bool := a.getLsbD 7

/-- The result to `V[X]`, then the flag to VF, so that VF ends with the flag (R141). -/
def State.setResultFlag (s : State) (x : Reg) (r : Byte) (c : Bool) : State :=
  (s.setReg x r).setReg vF (flagByte c)

/-- The result of a logic instruction to `V[X]`, then 0 to VF under ORIGINAL (R151 to R153, R141). -/
def State.setLogicResult (s : State) (x : Reg) (r : Byte) : State :=
  match s.cfg.variant with
  | .original => s.setResultFlag x r false
  | .extended => s.setReg x r

end Sys2Proof.Machine
end

