-- ==== Sys2Proof/Machine/Alu.lean ====
section
/-! DEFINITION. Register arithmetic and logic (R140 to R172). -/

namespace Sys2Proof.Machine

/-- 6XNN (R145). -/
def execLdImm (x : Reg) (nn : Byte) (s : State) : Result := .next (s.advance.setReg x nn)

/-- 7XNN (R146): no flag. -/
def execAddImm (x : Reg) (nn : Byte) (s : State) : Result := .next (s.advance.setReg x (s.reg x + nn))

/-- 8XY0 (R150). -/
def execLdReg (x y : Reg) (s : State) : Result := .next (s.advance.setReg x (s.reg y))

/-- 8XY1 (R151). -/
def execOrReg (x y : Reg) (s : State) : Result := .next (s.advance.setLogicResult x (s.reg x ||| s.reg y))

/-- 8XY2 (R152). -/
def execAndReg (x y : Reg) (s : State) : Result := .next (s.advance.setLogicResult x (s.reg x &&& s.reg y))

/-- 8XY3 (R153). -/
def execXorReg (x y : Reg) (s : State) : Result := .next (s.advance.setLogicResult x (s.reg x ^^^ s.reg y))

/-- 8XY4 (R155). -/
def execAddReg (x y : Reg) (s : State) : Result :=
  .next (s.advance.setResultFlag x (s.reg x + s.reg y) (carryFlag (s.reg x) (s.reg y)))

/-- 8XY5 (R156). -/
def execSub (x y : Reg) (s : State) : Result :=
  .next (s.advance.setResultFlag x (s.reg x - s.reg y) (notBorrowFlag (s.reg x) (s.reg y)))

/-- 8XY7 (R157). -/
def execSubn (x y : Reg) (s : State) : Result :=
  .next (s.advance.setResultFlag x (s.reg y - s.reg x) (notBorrowFlag (s.reg y) (s.reg x)))

/-- 8XY6 (R158). -/
def execShr (x y : Reg) (s : State) : Result :=
  .next (s.advance.setResultFlag x (s.shiftSource x y >>> 1) (lowBitFlag (s.shiftSource x y)))

/-- 8XYE (R159). -/
def execShl (x y : Reg) (s : State) : Result :=
  .next (s.advance.setResultFlag x (s.shiftSource x y <<< 1) (highBitFlag (s.shiftSource x y)))

/-- The effect of CXNN for the drawn byte `r` (R170). -/
def rndWith (r : Byte) (x : Reg) (nn : Byte) (s : State) : State := s.advance.tickDraw.setReg x (r &&& nn)

/-- CXNN (R170): `r` is a fresh free byte (R172). -/
def execRnd (x : Reg) (nn : Byte) (s : State) : Result := .next (rndWith (Config.randomByte s.draws) x nn s)

end Sys2Proof.Machine
end

