-- ==== Sys2Proof/Machine/Display.lean ====
section
/-! DEFINITION. The display XOR unit: clear and draw (R210 to R218). -/

namespace Sys2Proof.Machine

/-- 00E0 (R210). -/
def execCls (s : State) : Result := .next (s.advance.setDisplay Display.blank)

/-- What a draw carries through its loops: the display so far and the collision so far (R215). -/
structure DrawState where
  disp : Display
  collision : Bool
  deriving DecidableEq, Repr

/-- One sprite bit of a row: column `ox + c` of row `y`, clipped at column 63, toggled if bit `7 - c` of the byte is 1 (R215). -/
def drawBit (y ox : Nat) (b : Byte) (d : DrawState) (c : Nat) : DrawState :=
  if ox + c ≤ 63 ∧ b.getLsbD (7 - c) then
    { disp := Display.setPixel d.disp y (ox + c) (!Display.pixel d.disp y (ox + c))
      collision := d.collision || Display.pixel d.disp y (ox + c) }
  else d

/-- One sprite row, bit 7 first (R215). -/
def drawRow (y ox : Nat) (b : Byte) (d : DrawState) : DrawState := (List.range 8).foldl (drawBit y ox b) d

/-- The rows of a sprite from row `y` down, one byte each, in ascending order (R215). -/
def drawRows (y ox : Nat) (d : DrawState) : List Byte → DrawState
  | [] => d
  | b :: rest => drawRows (y + 1) ox (drawRow y ox b d) rest

/-- The origin column `V[X] mod 64` (R215). -/
def State.originX (s : State) (x : Reg) : Nat := (s.reg x).toNat % 64

/-- The origin row `V[Y] mod 32` (R215). -/
def State.originY (s : State) (y : Reg) : Nat := (s.reg y).toNat % 32

/-- The rows drawn: those past row 31 are clipped (R215). -/
def State.visibleRows (s : State) (y : Reg) (n : Fin 16) : Nat := min n.val (32 - s.originY y)

/-- The sprite bytes read: one at `I + r` for each row drawn (R215). -/
def State.spriteBytes (s : State) (rows : Nat) : List Byte := (List.range rows).map fun r => s.readMem (s.dataAddr r)

/-- The draw of DXYN on the display as it stands, its collision starting at 0 (R215). -/
def State.drawn (s : State) (x y : Reg) (n : Fin 16) : DrawState :=
  drawRows (s.originY y) (s.originX x) ⟨s.disp, false⟩ (s.spriteBytes (s.visibleRows y n))

/-- The effect of DXYN when every row drawn lies in memory (R215). -/
def drawEffect (x y : Reg) (n : Fin 16) (s : State) : State :=
  (s.advance.setDisplay (s.drawn x y n).disp).setReg vF (flagByte (s.drawn x y n).collision)

/-- DXYN (R215): no row drawn means no address checked. -/
def execDrw (x y : Reg) (n : Fin 16) (s : State) : Result :=
  if s.visibleRows y n = 0 then .next (drawEffect x y n s)
  else s.guardData (encode (.drw x y n)) (s.visibleRows y n - 1) (.next (drawEffect x y n s))

end Sys2Proof.Machine
end

