-- ==== Sys2Proof/Machine/Flow.lean ====
section
/-! DEFINITION. Control flow: return, jump, call, skips, computed jump (R110 to R127).
A meaning takes the state before the advance of R92, whose PC is pc0 (notes/assumptions/10). -/

namespace Sys2Proof.Machine

/-- 00EE (R110). -/
def execRet (s : State) : Result :=
  if s.sp = 0 then raiseFault s .stackUnderflow (some (encode .ret)) none
  else .next (s.pop.setPc (s.stackEntry (s.sp - 1)))

/-- 1NNN (R111). -/
def execJp (nnn : BitVec 12) (s : State) : Result := .next (s.setPc (addrOf nnn))

/-- 2NNN (R112).  The guard is `SP >= STACK_CAPACITY`; where R27 holds, it is R112's `SP = STACK_CAPACITY` (notes/assumptions/6). -/
def execCall (nnn : BitVec 12) (s : State) : Result :=
  if s.cfg.stackCapacity ≤ s.sp then raiseFault s .stackOverflow (some (encode (.call nnn))) none
  else .next ((s.push (s.pc + 2)).setPc (addrOf nnn))

/-- 3XNN (R115). -/
def execSeImm (x : Reg) (nn : Byte) (s : State) : Result := .next (s.advance.skipIf (decide (s.reg x = nn)))

/-- 4XNN (R116). -/
def execSneImm (x : Reg) (nn : Byte) (s : State) : Result := .next (s.advance.skipIf (decide (s.reg x ≠ nn)))

/-- 5XY0 (R117). -/
def execSeReg (x y : Reg) (s : State) : Result := .next (s.advance.skipIf (decide (s.reg x = s.reg y)))

/-- 9XY0 (R118). -/
def execSneReg (x y : Reg) (s : State) : Result := .next (s.advance.skipIf (decide (s.reg x ≠ s.reg y)))

/-- BNNN (R126). -/
def execJpV0 (nnn : BitVec 12) (s : State) : Result := .next (s.setPc (addrOf nnn + wordOf (s.reg v0)))

end Sys2Proof.Machine
end

