-- ==== Sys2Proof/Machine/IndexMemory.lean ====
section
/-! DEFINITION. The index register and memory transfer (R180 to R195). -/

namespace Sys2Proof.Machine

/-- ANNN (R180). -/
def execLdI (nnn : BitVec 12) (s : State) : Result := .next (s.advance.setIndex (addrOf nnn))

/-- FX1E (R182): the sum over the integers must fit 16 bits. -/
def execAddI (x : Reg) (s : State) : Result :=
  if s.index.toNat + (s.reg x).toNat > 0xFFFF then raiseFault s .indexOverflow (some (encode (.addI x))) none
  else .next (s.advance.setIndex (s.index + wordOf (s.reg x)))

/-- FX29 (R186): the whole of V[X], no mask. -/
def execLdF (x : Reg) (s : State) : Result := .next (s.advance.setIndex (wordOf (s.reg x) * 5))

/-- FX33 (R188). -/
def execLdB (x : Reg) (s : State) : Result :=
  s.guardData (encode (.ldB x)) 2 (.next (s.advance.writeBytes s.index.toNat (bcdDigits (s.reg x))))

/-- FX55 (R190). -/
def execLdMemVx (x : Reg) (s : State) : Result :=
  s.guardData (encode (.ldMemVx x)) x.val
    (.next ((s.advance.writeBytes s.index.toNat ((regsUpTo x).map s.reg)).setIndex (s.indexAfterTransfer x)))

/-- The loop of FX65: `V[j] <- MEM[I + j]` for the registers of the list, in order (R192). -/
def State.loadRegs (s : State) (js : List Reg) : State :=
  js.foldl (fun t j => t.setReg j (s.readMem (s.dataAddr j.val))) s

/-- FX65 (R192). -/
def execLdVxMem (x : Reg) (s : State) : Result :=
  s.guardData (encode (.ldVxMem x)) x.val
    (.next ((s.advance.loadRegs (regsUpTo x)).setIndex (s.indexAfterTransfer x)))

end Sys2Proof.Machine
end

