-- ==== Sys2Proof/Machine/KeypadTimer.lean ====
section
/-! DEFINITION. Keypad and timer instructions (R230 to R241) and the key-wait steps (R98). -/

namespace Sys2Proof.Machine

/-- Run `k` on the key `V[x]` names, or take KeyIndexOutOfRange if there is none (R232). -/
def State.guardKey (s : State) (op : Opcode) (x : Reg) (k : Key → Result) : Result :=
  if h : (s.reg x).toNat < 16 then k ⟨(s.reg x).toNat, h⟩
  else raiseFault s .keyIndexOutOfRange (some op) (some (s.reg x).toNat)

/-- EX9E (R230). -/
def execSkp (x : Reg) (s : State) : Result :=
  s.guardKey (encode (.skp x)) x fun k => .next (s.advance.skipIf (s.keyDown k))

/-- EXA1 (R231). -/
def execSknp (x : Reg) (s : State) : Result :=
  s.guardKey (encode (.sknp x)) x fun k => .next (s.advance.skipIf (!s.keyDown k))

/-- FX07 (R236). -/
def execLdVxDT (x : Reg) (s : State) : Result := .next (s.advance.setReg x s.dt)

/-- FX15 (R237). -/
def execLdDTVx (x : Reg) (s : State) : Result := .next (s.advance.setDT (s.reg x))

/-- FX18 (R238). -/
def execLdSTVx (x : Reg) (s : State) : Result := .next (s.advance.setST (s.reg x))

/-- The sub-state a sample of the keypad leads to while no key is latched: the lowest pressed key is latched (R98, R241). -/
def State.sampleKey (s : State) (x : Reg) : SubState :=
  match s.lowestPressed with
  | some k => .awaitKeyRelease x k
  | none => .awaitKeyPress x

/-- FX0A (R241). -/
def execLdVxK (x : Reg) (s : State) : Result := .next (s.advance.setSub (s.sampleKey x))

/-- The key-wait step of AwaitKeyPress (R98). -/
def awaitPress (x : Reg) (s : State) : State := s.setSub (s.sampleKey x)

/-- The key-wait step of AwaitKeyRelease (R98). -/
def awaitRelease (x : Reg) (k : Key) (s : State) : State :=
  if s.keyDown k then s else (s.setReg x (BitVec.ofNat 8 k.val)).setSub .running

end Sys2Proof.Machine
end

