-- ==== Sys2Proof/Machine/Fetch.lean ====
section
/-! DEFINITION. The fetch of an opcode (R91) and the unmatched opcode (R97). -/

namespace Sys2Proof.Machine

/-- Both bytes of the opcode at PC are in memory (R91). -/
def State.fetchOk (s : State) : Bool := decide (s.pc.toNat + 1 ≤ 4095)

/-- The opcode at PC, big-endian (R91, R55). -/
def State.fetchOp (s : State) : Opcode := opcodeOfBytes (s.readMem s.pc.toNat) (s.readMem (s.pc.toNat + 1))

/-- The address a failed fetch reports: PC + 1, or PC when PC itself is past the memory (R91). -/
def State.fetchAddr (s : State) : Nat := if s.pc.toNat > 4095 then s.pc.toNat else s.pc.toNat + 1

/-- The fetch fault (R91): the record has no opcode. -/
def execFetchFault (s : State) : Result := raiseFault s .fetchOutOfRange none (some s.fetchAddr)

/-- An opcode no row matches: a no-op that only advances PC, or UnknownOpcode, by the policy (R97). -/
def execUnmatched (op : Opcode) (s : State) : Result :=
  match s.cfg.unknownPolicy with
  | .nop => .next s.advance
  | .fault => raiseFault s .unknownOpcode (some op) none

end Sys2Proof.Machine
end

