-- ==== Sys2Proof/Machine/Engine.lean ====
section
/-! DEFINITION. The step of the engine (R90). -/

namespace Sys2Proof.Machine

/-- Fetch, decode and execute one instruction (R91 to R97). -/
def fetchDecodeExecute (s : State) : Result :=
  if s.fetchOk then
    match decode s.fetchOp with
    | .ok i => exec i s
    | .error _ => execUnmatched s.fetchOp s
  else execFetchFault s

/-- One step of the engine (R90): enabled only when `FAULT` is none; what it does depends on `SUB`. -/
def engineStep (s : State) : Result :=
  match s.fault with
  | some r => .fault (.halted r)
  | none =>
    match s.sub with
    | .running => fetchDecodeExecute s
    | .awaitKeyPress x => .next (awaitPress x s)
    | .awaitKeyRelease x k => .next (awaitRelease x k s)

/-- `s` made ready to fetch: running, without a fault, and with PC at an address whose opcode lies in memory. -/
def State.readyToFetch (s : State) : State :=
  { s with fault := none, sub := .running, pc := if s.fetchOk then s.pc else 0x200 }

/-- An opcode stored at PC as memory holds it, big-endian (R55). -/
def State.storeOpcode (s : State) (op : Opcode) : State :=
  s.writeBytes s.pc.toNat [opcodeHi op, opcodeLo op]

end Sys2Proof.Machine
end

