-- ==== Sys2Proof/Machine/Step.lean ====
section
/-! DEFINITION. The step of the machine, and the placing of an opcode-table word where the next step fetches. -/

namespace Sys2Proof.Machine

/-- One step of the block: one call of the engine by the host (R90). -/
def step (s : State) : Host.Outcome State Fault Refusal := engineStep s

/-- `s` with the opcode-table word stored where the very next step fetches it (notes/assumptions/9). -/
def State.withFetchWord (s : State) (nbits w : Nat) : State :=
  s.readyToFetch.storeOpcode (tableOpcode nbits w)

end Sys2Proof.Machine
end

