-- ==== Sys2Proof/Machine/Driver.lean ====
section
/-! DEFINITION. The host's actions on the block (R285 to R292) and the load (R300, R301).  They happen between steps, never inside one
(R60, R101), so `step` does not contain them (notes/assumptions/11). -/

namespace Sys2Proof.Machine

/-! ## Load (R300, R301) -/

/-- Why a load fails (R301).  A load error is no fault of the block (R260). -/
inductive LoadError where
  | romTooLarge
  | romUnreadable
  deriving DecidableEq, Repr

/-- The memory cells of ROM bytes placed from address `a` on; a byte equal to what its address reads as unlisted is not listed. -/
def romCells (font : Vector Byte 80) (a : Nat) : List Byte → Memory
  | [] => []
  | b :: rest =>
    if b = Memory.unlisted font a then romCells font (a + 1) rest else (a, b) :: romCells font (a + 1) rest

/-- The state a successful load builds (R300, R39).  The draw counter is the model's own and goes on, so that no draw is used twice. -/
def loadedState (cfg : Config) (draws : Nat) (rom : List Byte) : State :=
  { State.reset with mem := romCells cfg.font romBase rom, cfg := cfg, draws := draws }

/-- `load(rom_bytes, variant)` (R300, R301); `none` is a ROM that cannot be read.  `cfg` holds the caller's variant. -/
def load (cfg : Config) (draws : Nat) (src : Option (List Byte)) : Except LoadError State :=
  match src with
  | none => .error .romUnreadable
  | some rom => if romFits rom then .ok (loadedState cfg draws rom) else .error .romTooLarge

/-- A load over an existing state: it replaces the state completely, and clears `FAULT`; a failed load leaves the state unchanged
(R300, R301).  Only the variant is the caller's. -/
def State.reload (s : State) (variant : Variant) (src : Option (List Byte)) : State :=
  match load { s.cfg with variant := variant } s.draws src with
  | .ok t => t
  | .error _ => s

/-! ## Timers (R280, R281) -/

/-- A counter's decrement, clamped at 0 (R32, R280). -/
def countDown (b : Byte) : Byte := if b = 0 then 0 else b - 1

/-- The timer update (R280): not while halted (R266); TONE from ST as it was before the decrement (R281). -/
def State.timerUpdate (s : State) : State :=
  match s.fault with
  | some _ => s
  | none => { s with dt := countDown s.dt, tone := decide (s.st ≠ 0), st := countDown s.st }

/-! ## Keypad, render and audio (R286 to R288) -/

/-- `KEY[k] <- pressed` (R286). -/
def State.keyWrite (s : State) (k : Key) (pressed : Bool) : State := { s with key := s.key.set k.val pressed }

/-- The display is handed to the renderer, so `REDRAW <- false` (R287). -/
def State.render (s : State) : State := { s with redraw := false }

/-- What the host reads in an exchange: DISP, REDRAW and TONE (R287, R288). -/
structure FrameOutput where
  disp : Display
  redraw : Bool
  tone : Bool
  deriving DecidableEq, Repr

/-- The outputs of the block as they stand (R287, R288); reading them changes nothing. -/
def State.output (s : State) : FrameOutput := ⟨s.disp, s.redraw, s.tone⟩

/-- An action of the host at a step boundary (R291). -/
inductive HostAction where
  /-- A load over the running state (R300). -/
  | load (variant : Variant) (src : Option (List Byte))
  /-- The timer update (R280). -/
  | timerUpdate
  /-- A keypad write (R286). -/
  | keyWrite (k : Key) (pressed : Bool)
  /-- The display handed to the renderer (R287). -/
  | render
  /-- The audio gate reads TONE; no state changes (R288). -/
  | audio
  /-- Cancellation changes no block state (R289). -/
  | cancel
  deriving DecidableEq, Repr

/-- The effect of a host action on the state (R291). -/
def State.host (s : State) : HostAction → State
  | .load variant src => s.reload variant src
  | .timerUpdate => s.timerUpdate
  | .keyWrite k pressed => s.keyWrite k pressed
  | .render => s.render
  | .audio => s
  | .cancel => s

/-! ## The frame tick (R285) -/

/-- The instruction quota: up to the given number of steps, stopping when `FAULT` is set (R285, R99). -/
def runQuota : Nat → State → State
  | 0, s => s
  | k + 1, s =>
    match s.fault with
    | some _ => s
    | none =>
      match step s with
      | .next t => runQuota k t
      | .fault _ => s
      | .refused _ => s

/-- What the host does in the exchange of a frame tick: whether the display is handed over, and the keypad writes (R285). -/
structure Exchange where
  render : Bool
  keys : List (Key × Bool)
  deriving DecidableEq, Repr

/-- Keypad writes in order (R286). -/
def State.keyWrites (s : State) (ws : List (Key × Bool)) : State := ws.foldl (fun t w => t.keyWrite w.1 w.2) s

/-- The exchange: render, then input; audio only reads (R285). -/
def State.exchange (s : State) (e : Exchange) : State := (if e.render then s.render else s).keyWrites e.keys

/-- The state after the instruction quota and the timer update of a frame tick: `IPF` steps, as the configuration fixes (R285, R7). -/
def State.frameUpdate (s : State) : State := (runQuota s.cfg.ipf s).timerUpdate

/-- One frame tick (R285): the quota, the timer update, the exchange.  It gives the state and what the host read. -/
def State.frameTick (s : State) (e : Exchange) : State × FrameOutput := (s.frameUpdate.exchange e, s.frameUpdate.output)

/-! ## Save and restore (R290): outside the block, their effect on the state only -/

/-- The captured fields (R290). -/
structure Snapshot where
  mem : Memory
  disp : Display
  v : Vector Byte 16
  index : Addr
  pc : Addr
  dt : Byte
  st : Byte
  stk : Vector Addr 16
  sp : Nat
  key : Vector Bool 16
  deriving DecidableEq, Repr

/-- The components a snapshot does not hold, which a restore takes as inputs (R290). -/
structure RestoreInputs where
  sub : SubState
  redraw : Bool
  tone : Bool
  fault : Option FaultRecord
  variant : Variant
  deriving DecidableEq, Repr

/-- What a save captures (R290). -/
def State.save (s : State) : Snapshot :=
  ⟨s.mem, s.disp, s.v, s.index, s.pc, s.dt, s.st, s.stk, s.sp, s.key⟩

/-- A restore: atomic if it succeeds; a failed one (`none`) leaves the state unchanged (R290). -/
def State.restore (s : State) (snap : Option Snapshot) (r : RestoreInputs) : State :=
  match snap with
  | none => s
  | some p =>
    { mem := p.mem, v := p.v, index := p.index, pc := p.pc, stk := p.stk, sp := p.sp, disp := p.disp, key := p.key, dt := p.dt, st := p.st,
      redraw := r.redraw, sub := r.sub, tone := r.tone, fault := r.fault, cfg := { s.cfg with variant := r.variant }, draws := s.draws }

end Sys2Proof.Machine
end

