-- ==== Sys2Proof/Laws/Memory.lean ====
section
/-! SUPPORT. The memory operations: what a read gives after a write, and that every operation keeps the canonical form. -/

namespace Sys2Proof.Machine

variable {font : Vector Byte 80}

/-- Every listed address is above `a`. -/
def Memory.above (a : Nat) (m : Memory) : Prop := ∀ c ∈ m, a < c.1

theorem Memory.wf_cons {k : Nat} {b : Byte} {m : Memory} :
    Memory.wf font ((k, b) :: m) = true ↔
      k < memSize ∧ b ≠ Memory.unlisted font k ∧ Memory.above k m ∧ Memory.wf font m = true := by
  simp [Memory.wf, Memory.above, and_assoc]

theorem Memory.read_of_above {a : Nat} {m : Memory} (h : Memory.above a m) :
    Memory.read font m a = Memory.unlisted font a := by
  induction m with
  | nil => rfl
  | cons c m ih =>
    have hc : a < c.1 := h c (by simp)
    simp only [Memory.read]
    rw [if_neg (by omega)]
    exact ih fun d hd => h d (by simp [hd])

theorem Memory.above_trans {a k : Nat} {m : Memory} (h : a < k) (hk : Memory.above k m) : Memory.above a m :=
  fun c hc => Nat.lt_trans h (hk c hc)

theorem Memory.read_insert (m : Memory) (a c : Nat) (b : Byte) (hm : Memory.wf font m = true) :
    Memory.read font (Memory.insert m a b) c = if c = a then b else Memory.read font m c := by
  induction m with
  | nil => simp [Memory.insert, Memory.read, eq_comm]
  | cons e m ih =>
    obtain ⟨k, d⟩ := e
    obtain ⟨-, -, -, hw⟩ := Memory.wf_cons.1 hm
    simp only [Memory.insert]
    split
    · simp only [Memory.read, eq_comm]
    · split
      · subst_vars
        simp only [Memory.read]
        by_cases h : c = k <;> simp [h, eq_comm]
      · simp only [Memory.read, ih hw]
        by_cases h : k = c
        · subst h
          rw [if_pos rfl, if_pos rfl, if_neg (by omega)]
        · rw [if_neg h, if_neg h]

theorem Memory.read_erase (m : Memory) (a c : Nat) (hm : Memory.wf font m = true) :
    Memory.read font (Memory.erase m a) c = if c = a then Memory.unlisted font a else Memory.read font m c := by
  induction m with
  | nil =>
    by_cases h : c = a <;> simp [Memory.erase, Memory.read, h]
  | cons e m ih =>
    obtain ⟨k, d⟩ := e
    obtain ⟨-, -, ha, hw⟩ := Memory.wf_cons.1 hm
    simp only [Memory.erase]
    split
    · rename_i h
      subst h
      by_cases hc : c = k
      · subst hc
        simp [Memory.read_of_above ha]
      · simp [hc, Memory.read, Ne.symm hc]
    · simp only [Memory.read, ih hw]
      by_cases h : k = c
      · subst h
        rw [if_pos rfl, if_pos rfl, if_neg (by assumption)]
      · rw [if_neg h, if_neg h]

/-- A read after a write: the byte written at its address, what was there before at every other. -/
theorem Memory.read_write (m : Memory) (a c : Nat) (b : Byte) (hm : Memory.wf font m = true) :
    Memory.read font (Memory.write font m a b) c = if c = a then b else Memory.read font m c := by
  unfold Memory.write
  split
  · rename_i h
    rw [Memory.read_erase m a c hm, ← h]
  · exact Memory.read_insert m a c b hm

theorem Memory.above_insert {m : Memory} {k a : Nat} {b : Byte} (h : Memory.above k m) (ha : k < a) :
    Memory.above k (Memory.insert m a b) := by
  induction m with
  | nil => intro c hc; simp [Memory.insert] at hc; simp [hc, ha]
  | cons e m ih =>
    obtain ⟨j, d⟩ := e
    have hj : k < j := h (j, d) (by simp)
    have hm : Memory.above k m := fun c hc => h c (by simp [hc])
    simp only [Memory.insert]
    intro c hc
    split at hc
    · rcases List.mem_cons.1 hc with rfl | hc
      · exact ha
      · exact h c hc
    · split at hc
      · rcases List.mem_cons.1 hc with rfl | hc
        · exact ha
        · exact hm c hc
      · rcases List.mem_cons.1 hc with rfl | hc
        · exact hj
        · exact ih hm c hc

theorem Memory.above_erase {m : Memory} {k a : Nat} (h : Memory.above k m) : Memory.above k (Memory.erase m a) := by
  induction m with
  | nil => exact h
  | cons e m ih =>
    obtain ⟨j, d⟩ := e
    have hm : Memory.above k m := fun c hc => h c (by simp [hc])
    simp only [Memory.erase]
    split
    · exact hm
    · intro c hc
      rcases List.mem_cons.1 hc with rfl | hc
      · exact h _ (by simp)
      · exact ih hm c hc

theorem Memory.wf_insert {m : Memory} {a : Nat} {b : Byte} (hm : Memory.wf font m = true) (ha : a < memSize)
    (hb : b ≠ Memory.unlisted font a) : Memory.wf font (Memory.insert m a b) = true := by
  induction m with
  | nil => exact Memory.wf_cons.2 ⟨ha, hb, by simp [Memory.above], rfl⟩
  | cons e m ih =>
    obtain ⟨k, d⟩ := e
    obtain ⟨hk, hd, hab, hw⟩ := Memory.wf_cons.1 hm
    simp only [Memory.insert]
    split
    · rename_i h
      refine Memory.wf_cons.2 ⟨ha, hb, ?_, hm⟩
      intro c hc
      rcases List.mem_cons.1 hc with rfl | hc
      · exact h
      · exact Nat.lt_trans h (hab c hc)
    · split
      · subst_vars
        exact Memory.wf_cons.2 ⟨ha, hb, hab, hw⟩
      · exact Memory.wf_cons.2 ⟨hk, hd, Memory.above_insert hab (by omega), ih hw⟩

theorem Memory.wf_erase {m : Memory} {a : Nat} (hm : Memory.wf font m = true) :
    Memory.wf font (Memory.erase m a) = true := by
  induction m with
  | nil => exact hm
  | cons e m ih =>
    obtain ⟨k, d⟩ := e
    obtain ⟨hk, hd, hab, hw⟩ := Memory.wf_cons.1 hm
    simp only [Memory.erase]
    split
    · exact hw
    · exact Memory.wf_cons.2 ⟨hk, hd, Memory.above_erase hab, ih hw⟩

/-- A write inside the memory keeps the canonical form. -/
theorem Memory.wf_write {m : Memory} {a : Nat} {b : Byte} (hm : Memory.wf font m = true) (ha : a < memSize) :
    Memory.wf font (Memory.write font m a b) = true := by
  unfold Memory.write
  split
  · exact Memory.wf_erase hm
  · rename_i h
    exact Memory.wf_insert hm ha h

theorem romCells_above (rom : List Byte) (a k : Nat) (h : k < a) : Memory.above k (romCells font a rom) := by
  induction rom generalizing a with
  | nil => simp [romCells, Memory.above]
  | cons b rom ih =>
    simp only [romCells]
    split
    · exact ih (a + 1) (by omega)
    · intro c hc
      rcases List.mem_cons.1 hc with rfl | hc
      · exact h
      · exact ih (a + 1) (by omega) c hc

/-- A ROM that fits is placed in canonical form. -/
theorem romCells_wf (rom : List Byte) (a : Nat) (h : a + rom.length ≤ memSize) :
    Memory.wf font (romCells font a rom) = true := by
  induction rom generalizing a with
  | nil => rfl
  | cons b rom ih =>
    simp only [List.length_cons] at h
    simp only [romCells]
    split
    · exact ih (a + 1) (by omega)
    · rename_i hb
      exact Memory.wf_cons.2 ⟨by omega, hb, romCells_above rom (a + 1) a (by omega), ih (a + 1) (by omega)⟩

/-- The reset memory is in canonical form. -/
theorem reset_memory_wf : Memory.wf State.reset.cfg.font State.reset.mem = true := rfl

/-! ## The same for the machine's own reads and writes -/

theorem State.readMem_writeMem (s : State) (a c : Nat) (b : Byte) (h : Memory.wf s.cfg.font s.mem = true) :
    (s.writeMem a b).readMem c = if c = a then b else s.readMem c :=
  Memory.read_write s.mem a c b h

theorem State.writeBytes_cfg (s : State) (a : Nat) (bs : List Byte) : (s.writeBytes a bs).cfg = s.cfg := by
  induction bs generalizing s a with
  | nil => rfl
  | cons b bs ih => exact ih _ _

/-- Storing bytes changes memory alone. -/
theorem State.writeBytes_eq (s : State) (a : Nat) (bs : List Byte) :
    s.writeBytes a bs = { s with mem := (s.writeBytes a bs).mem } := by
  induction bs generalizing s a with
  | nil => rfl
  | cons b bs ih => exact ih _ _

/-- Storing bytes inside the memory keeps the canonical form. -/
theorem State.writeBytes_wf (s : State) (a : Nat) (bs : List Byte) (h : Memory.wf s.cfg.font s.mem = true)
    (ha : a + bs.length ≤ memSize) : Memory.wf s.cfg.font (s.writeBytes a bs).mem = true := by
  induction bs generalizing s a with
  | nil => exact h
  | cons b bs ih =>
    simp only [List.length_cons] at ha
    exact ih (s.writeMem a b) (a + 1) (Memory.wf_write h (by omega)) (by omega)

/-- After storing bytes inside the memory, byte `k` of the list stands at `a + k`, and every byte outside them is as before. -/
theorem State.readMem_writeBytes (s : State) (a c : Nat) (bs : List Byte) (h : Memory.wf s.cfg.font s.mem = true)
    (ha : a + bs.length ≤ memSize) :
    (s.writeBytes a bs).readMem c = if c < a then s.readMem c else (bs[c - a]?).getD (s.readMem c) := by
  induction bs generalizing s a with
  | nil => simp [State.writeBytes]
  | cons b bs ih =>
    simp only [List.length_cons] at ha
    have h1 := ih (s.writeMem a b) (a + 1) (Memory.wf_write h (by omega)) (by omega)
    rw [State.writeBytes, h1, State.readMem_writeMem s a c b h]
    rcases Nat.lt_trichotomy c a with hc | hc | hc
    · rw [if_pos (by omega), if_neg (by omega), if_pos hc]
    · subst hc
      simp
    · rw [if_neg (by omega), if_neg (by omega), if_neg (by omega)]
      obtain ⟨k, rfl⟩ : ∃ k, c = a + 1 + k := ⟨c - (a + 1), by omega⟩
      have e1 : a + 1 + k - a = k + 1 := by omega
      have e2 : a + 1 + k - (a + 1) = k := by omega
      rw [e1, e2, List.getElem?_cons_succ]

end Sys2Proof.Machine
end

