-- ==== Sys2Proof/Laws/State.lean ====
section
/-! SUPPORT. One lemma per field per state update, so that no later proof unfolds a record update. -/

namespace Sys2Proof.Machine

/-! ## setReg -/

@[simp] theorem State.setReg_mem (s : State) (x : Reg) (b : Byte) : (s.setReg x b).mem = s.mem := rfl
@[simp] theorem State.setReg_v (s : State) (x : Reg) (b : Byte) : (s.setReg x b).v = s.v.set x.val b := rfl
@[simp] theorem State.setReg_index (s : State) (x : Reg) (b : Byte) : (s.setReg x b).index = s.index := rfl
@[simp] theorem State.setReg_pc (s : State) (x : Reg) (b : Byte) : (s.setReg x b).pc = s.pc := rfl
@[simp] theorem State.setReg_stk (s : State) (x : Reg) (b : Byte) : (s.setReg x b).stk = s.stk := rfl
@[simp] theorem State.setReg_sp (s : State) (x : Reg) (b : Byte) : (s.setReg x b).sp = s.sp := rfl
@[simp] theorem State.setReg_disp (s : State) (x : Reg) (b : Byte) : (s.setReg x b).disp = s.disp := rfl
@[simp] theorem State.setReg_key (s : State) (x : Reg) (b : Byte) : (s.setReg x b).key = s.key := rfl
@[simp] theorem State.setReg_dt (s : State) (x : Reg) (b : Byte) : (s.setReg x b).dt = s.dt := rfl
@[simp] theorem State.setReg_st (s : State) (x : Reg) (b : Byte) : (s.setReg x b).st = s.st := rfl
@[simp] theorem State.setReg_redraw (s : State) (x : Reg) (b : Byte) : (s.setReg x b).redraw = s.redraw := rfl
@[simp] theorem State.setReg_sub (s : State) (x : Reg) (b : Byte) : (s.setReg x b).sub = s.sub := rfl
@[simp] theorem State.setReg_tone (s : State) (x : Reg) (b : Byte) : (s.setReg x b).tone = s.tone := rfl
@[simp] theorem State.setReg_fault (s : State) (x : Reg) (b : Byte) : (s.setReg x b).fault = s.fault := rfl
@[simp] theorem State.setReg_cfg (s : State) (x : Reg) (b : Byte) : (s.setReg x b).cfg = s.cfg := rfl
@[simp] theorem State.setReg_draws (s : State) (x : Reg) (b : Byte) : (s.setReg x b).draws = s.draws := rfl

/-! ## setIndex -/

@[simp] theorem State.setIndex_mem (s : State) (a : Addr) : (s.setIndex a).mem = s.mem := rfl
@[simp] theorem State.setIndex_v (s : State) (a : Addr) : (s.setIndex a).v = s.v := rfl
@[simp] theorem State.setIndex_index (s : State) (a : Addr) : (s.setIndex a).index = a := rfl
@[simp] theorem State.setIndex_pc (s : State) (a : Addr) : (s.setIndex a).pc = s.pc := rfl
@[simp] theorem State.setIndex_stk (s : State) (a : Addr) : (s.setIndex a).stk = s.stk := rfl
@[simp] theorem State.setIndex_sp (s : State) (a : Addr) : (s.setIndex a).sp = s.sp := rfl
@[simp] theorem State.setIndex_disp (s : State) (a : Addr) : (s.setIndex a).disp = s.disp := rfl
@[simp] theorem State.setIndex_key (s : State) (a : Addr) : (s.setIndex a).key = s.key := rfl
@[simp] theorem State.setIndex_dt (s : State) (a : Addr) : (s.setIndex a).dt = s.dt := rfl
@[simp] theorem State.setIndex_st (s : State) (a : Addr) : (s.setIndex a).st = s.st := rfl
@[simp] theorem State.setIndex_redraw (s : State) (a : Addr) : (s.setIndex a).redraw = s.redraw := rfl
@[simp] theorem State.setIndex_sub (s : State) (a : Addr) : (s.setIndex a).sub = s.sub := rfl
@[simp] theorem State.setIndex_tone (s : State) (a : Addr) : (s.setIndex a).tone = s.tone := rfl
@[simp] theorem State.setIndex_fault (s : State) (a : Addr) : (s.setIndex a).fault = s.fault := rfl
@[simp] theorem State.setIndex_cfg (s : State) (a : Addr) : (s.setIndex a).cfg = s.cfg := rfl
@[simp] theorem State.setIndex_draws (s : State) (a : Addr) : (s.setIndex a).draws = s.draws := rfl

/-! ## setPc -/

@[simp] theorem State.setPc_mem (s : State) (a : Addr) : (s.setPc a).mem = s.mem := rfl
@[simp] theorem State.setPc_v (s : State) (a : Addr) : (s.setPc a).v = s.v := rfl
@[simp] theorem State.setPc_index (s : State) (a : Addr) : (s.setPc a).index = s.index := rfl
@[simp] theorem State.setPc_pc (s : State) (a : Addr) : (s.setPc a).pc = a := rfl
@[simp] theorem State.setPc_stk (s : State) (a : Addr) : (s.setPc a).stk = s.stk := rfl
@[simp] theorem State.setPc_sp (s : State) (a : Addr) : (s.setPc a).sp = s.sp := rfl
@[simp] theorem State.setPc_disp (s : State) (a : Addr) : (s.setPc a).disp = s.disp := rfl
@[simp] theorem State.setPc_key (s : State) (a : Addr) : (s.setPc a).key = s.key := rfl
@[simp] theorem State.setPc_dt (s : State) (a : Addr) : (s.setPc a).dt = s.dt := rfl
@[simp] theorem State.setPc_st (s : State) (a : Addr) : (s.setPc a).st = s.st := rfl
@[simp] theorem State.setPc_redraw (s : State) (a : Addr) : (s.setPc a).redraw = s.redraw := rfl
@[simp] theorem State.setPc_sub (s : State) (a : Addr) : (s.setPc a).sub = s.sub := rfl
@[simp] theorem State.setPc_tone (s : State) (a : Addr) : (s.setPc a).tone = s.tone := rfl
@[simp] theorem State.setPc_fault (s : State) (a : Addr) : (s.setPc a).fault = s.fault := rfl
@[simp] theorem State.setPc_cfg (s : State) (a : Addr) : (s.setPc a).cfg = s.cfg := rfl
@[simp] theorem State.setPc_draws (s : State) (a : Addr) : (s.setPc a).draws = s.draws := rfl

/-! ## advance -/

@[simp] theorem State.advance_mem (s : State) : s.advance.mem = s.mem := rfl
@[simp] theorem State.advance_v (s : State) : s.advance.v = s.v := rfl
@[simp] theorem State.advance_index (s : State) : s.advance.index = s.index := rfl
@[simp] theorem State.advance_pc (s : State) : s.advance.pc = s.pc + 2 := rfl
@[simp] theorem State.advance_stk (s : State) : s.advance.stk = s.stk := rfl
@[simp] theorem State.advance_sp (s : State) : s.advance.sp = s.sp := rfl
@[simp] theorem State.advance_disp (s : State) : s.advance.disp = s.disp := rfl
@[simp] theorem State.advance_key (s : State) : s.advance.key = s.key := rfl
@[simp] theorem State.advance_dt (s : State) : s.advance.dt = s.dt := rfl
@[simp] theorem State.advance_st (s : State) : s.advance.st = s.st := rfl
@[simp] theorem State.advance_redraw (s : State) : s.advance.redraw = s.redraw := rfl
@[simp] theorem State.advance_sub (s : State) : s.advance.sub = s.sub := rfl
@[simp] theorem State.advance_tone (s : State) : s.advance.tone = s.tone := rfl
@[simp] theorem State.advance_fault (s : State) : s.advance.fault = s.fault := rfl
@[simp] theorem State.advance_cfg (s : State) : s.advance.cfg = s.cfg := rfl
@[simp] theorem State.advance_draws (s : State) : s.advance.draws = s.draws := rfl

/-! ## setDT -/

@[simp] theorem State.setDT_mem (s : State) (b : Byte) : (s.setDT b).mem = s.mem := rfl
@[simp] theorem State.setDT_v (s : State) (b : Byte) : (s.setDT b).v = s.v := rfl
@[simp] theorem State.setDT_index (s : State) (b : Byte) : (s.setDT b).index = s.index := rfl
@[simp] theorem State.setDT_pc (s : State) (b : Byte) : (s.setDT b).pc = s.pc := rfl
@[simp] theorem State.setDT_stk (s : State) (b : Byte) : (s.setDT b).stk = s.stk := rfl
@[simp] theorem State.setDT_sp (s : State) (b : Byte) : (s.setDT b).sp = s.sp := rfl
@[simp] theorem State.setDT_disp (s : State) (b : Byte) : (s.setDT b).disp = s.disp := rfl
@[simp] theorem State.setDT_key (s : State) (b : Byte) : (s.setDT b).key = s.key := rfl
@[simp] theorem State.setDT_dt (s : State) (b : Byte) : (s.setDT b).dt = b := rfl
@[simp] theorem State.setDT_st (s : State) (b : Byte) : (s.setDT b).st = s.st := rfl
@[simp] theorem State.setDT_redraw (s : State) (b : Byte) : (s.setDT b).redraw = s.redraw := rfl
@[simp] theorem State.setDT_sub (s : State) (b : Byte) : (s.setDT b).sub = s.sub := rfl
@[simp] theorem State.setDT_tone (s : State) (b : Byte) : (s.setDT b).tone = s.tone := rfl
@[simp] theorem State.setDT_fault (s : State) (b : Byte) : (s.setDT b).fault = s.fault := rfl
@[simp] theorem State.setDT_cfg (s : State) (b : Byte) : (s.setDT b).cfg = s.cfg := rfl
@[simp] theorem State.setDT_draws (s : State) (b : Byte) : (s.setDT b).draws = s.draws := rfl

/-! ## setST -/

@[simp] theorem State.setST_mem (s : State) (b : Byte) : (s.setST b).mem = s.mem := rfl
@[simp] theorem State.setST_v (s : State) (b : Byte) : (s.setST b).v = s.v := rfl
@[simp] theorem State.setST_index (s : State) (b : Byte) : (s.setST b).index = s.index := rfl
@[simp] theorem State.setST_pc (s : State) (b : Byte) : (s.setST b).pc = s.pc := rfl
@[simp] theorem State.setST_stk (s : State) (b : Byte) : (s.setST b).stk = s.stk := rfl
@[simp] theorem State.setST_sp (s : State) (b : Byte) : (s.setST b).sp = s.sp := rfl
@[simp] theorem State.setST_disp (s : State) (b : Byte) : (s.setST b).disp = s.disp := rfl
@[simp] theorem State.setST_key (s : State) (b : Byte) : (s.setST b).key = s.key := rfl
@[simp] theorem State.setST_dt (s : State) (b : Byte) : (s.setST b).dt = s.dt := rfl
@[simp] theorem State.setST_st (s : State) (b : Byte) : (s.setST b).st = b := rfl
@[simp] theorem State.setST_redraw (s : State) (b : Byte) : (s.setST b).redraw = s.redraw := rfl
@[simp] theorem State.setST_sub (s : State) (b : Byte) : (s.setST b).sub = s.sub := rfl
@[simp] theorem State.setST_tone (s : State) (b : Byte) : (s.setST b).tone = s.tone := rfl
@[simp] theorem State.setST_fault (s : State) (b : Byte) : (s.setST b).fault = s.fault := rfl
@[simp] theorem State.setST_cfg (s : State) (b : Byte) : (s.setST b).cfg = s.cfg := rfl
@[simp] theorem State.setST_draws (s : State) (b : Byte) : (s.setST b).draws = s.draws := rfl

/-! ## setSub -/

@[simp] theorem State.setSub_mem (s : State) (b : SubState) : (s.setSub b).mem = s.mem := rfl
@[simp] theorem State.setSub_v (s : State) (b : SubState) : (s.setSub b).v = s.v := rfl
@[simp] theorem State.setSub_index (s : State) (b : SubState) : (s.setSub b).index = s.index := rfl
@[simp] theorem State.setSub_pc (s : State) (b : SubState) : (s.setSub b).pc = s.pc := rfl
@[simp] theorem State.setSub_stk (s : State) (b : SubState) : (s.setSub b).stk = s.stk := rfl
@[simp] theorem State.setSub_sp (s : State) (b : SubState) : (s.setSub b).sp = s.sp := rfl
@[simp] theorem State.setSub_disp (s : State) (b : SubState) : (s.setSub b).disp = s.disp := rfl
@[simp] theorem State.setSub_key (s : State) (b : SubState) : (s.setSub b).key = s.key := rfl
@[simp] theorem State.setSub_dt (s : State) (b : SubState) : (s.setSub b).dt = s.dt := rfl
@[simp] theorem State.setSub_st (s : State) (b : SubState) : (s.setSub b).st = s.st := rfl
@[simp] theorem State.setSub_redraw (s : State) (b : SubState) : (s.setSub b).redraw = s.redraw := rfl
@[simp] theorem State.setSub_sub (s : State) (b : SubState) : (s.setSub b).sub = b := rfl
@[simp] theorem State.setSub_tone (s : State) (b : SubState) : (s.setSub b).tone = s.tone := rfl
@[simp] theorem State.setSub_fault (s : State) (b : SubState) : (s.setSub b).fault = s.fault := rfl
@[simp] theorem State.setSub_cfg (s : State) (b : SubState) : (s.setSub b).cfg = s.cfg := rfl
@[simp] theorem State.setSub_draws (s : State) (b : SubState) : (s.setSub b).draws = s.draws := rfl

/-! ## tickDraw -/

@[simp] theorem State.tickDraw_mem (s : State) : s.tickDraw.mem = s.mem := rfl
@[simp] theorem State.tickDraw_v (s : State) : s.tickDraw.v = s.v := rfl
@[simp] theorem State.tickDraw_index (s : State) : s.tickDraw.index = s.index := rfl
@[simp] theorem State.tickDraw_pc (s : State) : s.tickDraw.pc = s.pc := rfl
@[simp] theorem State.tickDraw_stk (s : State) : s.tickDraw.stk = s.stk := rfl
@[simp] theorem State.tickDraw_sp (s : State) : s.tickDraw.sp = s.sp := rfl
@[simp] theorem State.tickDraw_disp (s : State) : s.tickDraw.disp = s.disp := rfl
@[simp] theorem State.tickDraw_key (s : State) : s.tickDraw.key = s.key := rfl
@[simp] theorem State.tickDraw_dt (s : State) : s.tickDraw.dt = s.dt := rfl
@[simp] theorem State.tickDraw_st (s : State) : s.tickDraw.st = s.st := rfl
@[simp] theorem State.tickDraw_redraw (s : State) : s.tickDraw.redraw = s.redraw := rfl
@[simp] theorem State.tickDraw_sub (s : State) : s.tickDraw.sub = s.sub := rfl
@[simp] theorem State.tickDraw_tone (s : State) : s.tickDraw.tone = s.tone := rfl
@[simp] theorem State.tickDraw_fault (s : State) : s.tickDraw.fault = s.fault := rfl
@[simp] theorem State.tickDraw_cfg (s : State) : s.tickDraw.cfg = s.cfg := rfl
@[simp] theorem State.tickDraw_draws (s : State) : s.tickDraw.draws = s.draws + 1 := rfl

/-! ## push -/

@[simp] theorem State.push_mem (s : State) (a : Addr) : (s.push a).mem = s.mem := rfl
@[simp] theorem State.push_v (s : State) (a : Addr) : (s.push a).v = s.v := rfl
@[simp] theorem State.push_index (s : State) (a : Addr) : (s.push a).index = s.index := rfl
@[simp] theorem State.push_pc (s : State) (a : Addr) : (s.push a).pc = s.pc := rfl
@[simp] theorem State.push_stk (s : State) (a : Addr) : (s.push a).stk = s.stk.setIfInBounds s.sp a := rfl
@[simp] theorem State.push_sp (s : State) (a : Addr) : (s.push a).sp = s.sp + 1 := rfl
@[simp] theorem State.push_disp (s : State) (a : Addr) : (s.push a).disp = s.disp := rfl
@[simp] theorem State.push_key (s : State) (a : Addr) : (s.push a).key = s.key := rfl
@[simp] theorem State.push_dt (s : State) (a : Addr) : (s.push a).dt = s.dt := rfl
@[simp] theorem State.push_st (s : State) (a : Addr) : (s.push a).st = s.st := rfl
@[simp] theorem State.push_redraw (s : State) (a : Addr) : (s.push a).redraw = s.redraw := rfl
@[simp] theorem State.push_sub (s : State) (a : Addr) : (s.push a).sub = s.sub := rfl
@[simp] theorem State.push_tone (s : State) (a : Addr) : (s.push a).tone = s.tone := rfl
@[simp] theorem State.push_fault (s : State) (a : Addr) : (s.push a).fault = s.fault := rfl
@[simp] theorem State.push_cfg (s : State) (a : Addr) : (s.push a).cfg = s.cfg := rfl
@[simp] theorem State.push_draws (s : State) (a : Addr) : (s.push a).draws = s.draws := rfl

/-! ## pop -/

@[simp] theorem State.pop_mem (s : State) : s.pop.mem = s.mem := rfl
@[simp] theorem State.pop_v (s : State) : s.pop.v = s.v := rfl
@[simp] theorem State.pop_index (s : State) : s.pop.index = s.index := rfl
@[simp] theorem State.pop_pc (s : State) : s.pop.pc = s.pc := rfl
@[simp] theorem State.pop_stk (s : State) : s.pop.stk = s.stk := rfl
@[simp] theorem State.pop_sp (s : State) : s.pop.sp = s.sp - 1 := rfl
@[simp] theorem State.pop_disp (s : State) : s.pop.disp = s.disp := rfl
@[simp] theorem State.pop_key (s : State) : s.pop.key = s.key := rfl
@[simp] theorem State.pop_dt (s : State) : s.pop.dt = s.dt := rfl
@[simp] theorem State.pop_st (s : State) : s.pop.st = s.st := rfl
@[simp] theorem State.pop_redraw (s : State) : s.pop.redraw = s.redraw := rfl
@[simp] theorem State.pop_sub (s : State) : s.pop.sub = s.sub := rfl
@[simp] theorem State.pop_tone (s : State) : s.pop.tone = s.tone := rfl
@[simp] theorem State.pop_fault (s : State) : s.pop.fault = s.fault := rfl
@[simp] theorem State.pop_cfg (s : State) : s.pop.cfg = s.cfg := rfl
@[simp] theorem State.pop_draws (s : State) : s.pop.draws = s.draws := rfl

/-! ## setDisplay -/

@[simp] theorem State.setDisplay_mem (s : State) (d : Display) : (s.setDisplay d).mem = s.mem := rfl
@[simp] theorem State.setDisplay_v (s : State) (d : Display) : (s.setDisplay d).v = s.v := rfl
@[simp] theorem State.setDisplay_index (s : State) (d : Display) : (s.setDisplay d).index = s.index := rfl
@[simp] theorem State.setDisplay_pc (s : State) (d : Display) : (s.setDisplay d).pc = s.pc := rfl
@[simp] theorem State.setDisplay_stk (s : State) (d : Display) : (s.setDisplay d).stk = s.stk := rfl
@[simp] theorem State.setDisplay_sp (s : State) (d : Display) : (s.setDisplay d).sp = s.sp := rfl
@[simp] theorem State.setDisplay_disp (s : State) (d : Display) : (s.setDisplay d).disp = d := rfl
@[simp] theorem State.setDisplay_key (s : State) (d : Display) : (s.setDisplay d).key = s.key := rfl
@[simp] theorem State.setDisplay_dt (s : State) (d : Display) : (s.setDisplay d).dt = s.dt := rfl
@[simp] theorem State.setDisplay_st (s : State) (d : Display) : (s.setDisplay d).st = s.st := rfl
@[simp] theorem State.setDisplay_redraw (s : State) (d : Display) : (s.setDisplay d).redraw = true := rfl
@[simp] theorem State.setDisplay_sub (s : State) (d : Display) : (s.setDisplay d).sub = s.sub := rfl
@[simp] theorem State.setDisplay_tone (s : State) (d : Display) : (s.setDisplay d).tone = s.tone := rfl
@[simp] theorem State.setDisplay_fault (s : State) (d : Display) : (s.setDisplay d).fault = s.fault := rfl
@[simp] theorem State.setDisplay_cfg (s : State) (d : Display) : (s.setDisplay d).cfg = s.cfg := rfl
@[simp] theorem State.setDisplay_draws (s : State) (d : Display) : (s.setDisplay d).draws = s.draws := rfl

/-! ## writeMem -/

@[simp] theorem State.writeMem_mem (s : State) (a : Nat) (b : Byte) : (s.writeMem a b).mem = Memory.write s.cfg.font s.mem a b := rfl
@[simp] theorem State.writeMem_v (s : State) (a : Nat) (b : Byte) : (s.writeMem a b).v = s.v := rfl
@[simp] theorem State.writeMem_index (s : State) (a : Nat) (b : Byte) : (s.writeMem a b).index = s.index := rfl
@[simp] theorem State.writeMem_pc (s : State) (a : Nat) (b : Byte) : (s.writeMem a b).pc = s.pc := rfl
@[simp] theorem State.writeMem_stk (s : State) (a : Nat) (b : Byte) : (s.writeMem a b).stk = s.stk := rfl
@[simp] theorem State.writeMem_sp (s : State) (a : Nat) (b : Byte) : (s.writeMem a b).sp = s.sp := rfl
@[simp] theorem State.writeMem_disp (s : State) (a : Nat) (b : Byte) : (s.writeMem a b).disp = s.disp := rfl
@[simp] theorem State.writeMem_key (s : State) (a : Nat) (b : Byte) : (s.writeMem a b).key = s.key := rfl
@[simp] theorem State.writeMem_dt (s : State) (a : Nat) (b : Byte) : (s.writeMem a b).dt = s.dt := rfl
@[simp] theorem State.writeMem_st (s : State) (a : Nat) (b : Byte) : (s.writeMem a b).st = s.st := rfl
@[simp] theorem State.writeMem_redraw (s : State) (a : Nat) (b : Byte) : (s.writeMem a b).redraw = s.redraw := rfl
@[simp] theorem State.writeMem_sub (s : State) (a : Nat) (b : Byte) : (s.writeMem a b).sub = s.sub := rfl
@[simp] theorem State.writeMem_tone (s : State) (a : Nat) (b : Byte) : (s.writeMem a b).tone = s.tone := rfl
@[simp] theorem State.writeMem_fault (s : State) (a : Nat) (b : Byte) : (s.writeMem a b).fault = s.fault := rfl
@[simp] theorem State.writeMem_cfg (s : State) (a : Nat) (b : Byte) : (s.writeMem a b).cfg = s.cfg := rfl
@[simp] theorem State.writeMem_draws (s : State) (a : Nat) (b : Byte) : (s.writeMem a b).draws = s.draws := rfl

/-! ## keyWrite -/

@[simp] theorem State.keyWrite_mem (s : State) (k : Key) (p : Bool) : (s.keyWrite k p).mem = s.mem := rfl
@[simp] theorem State.keyWrite_v (s : State) (k : Key) (p : Bool) : (s.keyWrite k p).v = s.v := rfl
@[simp] theorem State.keyWrite_index (s : State) (k : Key) (p : Bool) : (s.keyWrite k p).index = s.index := rfl
@[simp] theorem State.keyWrite_pc (s : State) (k : Key) (p : Bool) : (s.keyWrite k p).pc = s.pc := rfl
@[simp] theorem State.keyWrite_stk (s : State) (k : Key) (p : Bool) : (s.keyWrite k p).stk = s.stk := rfl
@[simp] theorem State.keyWrite_sp (s : State) (k : Key) (p : Bool) : (s.keyWrite k p).sp = s.sp := rfl
@[simp] theorem State.keyWrite_disp (s : State) (k : Key) (p : Bool) : (s.keyWrite k p).disp = s.disp := rfl
@[simp] theorem State.keyWrite_key (s : State) (k : Key) (p : Bool) : (s.keyWrite k p).key = s.key.set k.val p := rfl
@[simp] theorem State.keyWrite_dt (s : State) (k : Key) (p : Bool) : (s.keyWrite k p).dt = s.dt := rfl
@[simp] theorem State.keyWrite_st (s : State) (k : Key) (p : Bool) : (s.keyWrite k p).st = s.st := rfl
@[simp] theorem State.keyWrite_redraw (s : State) (k : Key) (p : Bool) : (s.keyWrite k p).redraw = s.redraw := rfl
@[simp] theorem State.keyWrite_sub (s : State) (k : Key) (p : Bool) : (s.keyWrite k p).sub = s.sub := rfl
@[simp] theorem State.keyWrite_tone (s : State) (k : Key) (p : Bool) : (s.keyWrite k p).tone = s.tone := rfl
@[simp] theorem State.keyWrite_fault (s : State) (k : Key) (p : Bool) : (s.keyWrite k p).fault = s.fault := rfl
@[simp] theorem State.keyWrite_cfg (s : State) (k : Key) (p : Bool) : (s.keyWrite k p).cfg = s.cfg := rfl
@[simp] theorem State.keyWrite_draws (s : State) (k : Key) (p : Bool) : (s.keyWrite k p).draws = s.draws := rfl

/-! ## render -/

@[simp] theorem State.render_mem (s : State) : s.render.mem = s.mem := rfl
@[simp] theorem State.render_v (s : State) : s.render.v = s.v := rfl
@[simp] theorem State.render_index (s : State) : s.render.index = s.index := rfl
@[simp] theorem State.render_pc (s : State) : s.render.pc = s.pc := rfl
@[simp] theorem State.render_stk (s : State) : s.render.stk = s.stk := rfl
@[simp] theorem State.render_sp (s : State) : s.render.sp = s.sp := rfl
@[simp] theorem State.render_disp (s : State) : s.render.disp = s.disp := rfl
@[simp] theorem State.render_key (s : State) : s.render.key = s.key := rfl
@[simp] theorem State.render_dt (s : State) : s.render.dt = s.dt := rfl
@[simp] theorem State.render_st (s : State) : s.render.st = s.st := rfl
@[simp] theorem State.render_redraw (s : State) : s.render.redraw = false := rfl
@[simp] theorem State.render_sub (s : State) : s.render.sub = s.sub := rfl
@[simp] theorem State.render_tone (s : State) : s.render.tone = s.tone := rfl
@[simp] theorem State.render_fault (s : State) : s.render.fault = s.fault := rfl
@[simp] theorem State.render_cfg (s : State) : s.render.cfg = s.cfg := rfl
@[simp] theorem State.render_draws (s : State) : s.render.draws = s.draws := rfl

/-! ## skipIf -/

@[simp] theorem State.skipIf_mem (s : State) (c : Bool) : (s.skipIf c).mem = s.mem := by cases c <;> rfl
@[simp] theorem State.skipIf_v (s : State) (c : Bool) : (s.skipIf c).v = s.v := by cases c <;> rfl
@[simp] theorem State.skipIf_index (s : State) (c : Bool) : (s.skipIf c).index = s.index := by cases c <;> rfl
@[simp] theorem State.skipIf_pc (s : State) (c : Bool) : (s.skipIf c).pc = if c then s.pc + 2 else s.pc := by cases c <;> rfl
@[simp] theorem State.skipIf_stk (s : State) (c : Bool) : (s.skipIf c).stk = s.stk := by cases c <;> rfl
@[simp] theorem State.skipIf_sp (s : State) (c : Bool) : (s.skipIf c).sp = s.sp := by cases c <;> rfl
@[simp] theorem State.skipIf_disp (s : State) (c : Bool) : (s.skipIf c).disp = s.disp := by cases c <;> rfl
@[simp] theorem State.skipIf_key (s : State) (c : Bool) : (s.skipIf c).key = s.key := by cases c <;> rfl
@[simp] theorem State.skipIf_dt (s : State) (c : Bool) : (s.skipIf c).dt = s.dt := by cases c <;> rfl
@[simp] theorem State.skipIf_st (s : State) (c : Bool) : (s.skipIf c).st = s.st := by cases c <;> rfl
@[simp] theorem State.skipIf_redraw (s : State) (c : Bool) : (s.skipIf c).redraw = s.redraw := by cases c <;> rfl
@[simp] theorem State.skipIf_sub (s : State) (c : Bool) : (s.skipIf c).sub = s.sub := by cases c <;> rfl
@[simp] theorem State.skipIf_tone (s : State) (c : Bool) : (s.skipIf c).tone = s.tone := by cases c <;> rfl
@[simp] theorem State.skipIf_fault (s : State) (c : Bool) : (s.skipIf c).fault = s.fault := by cases c <;> rfl
@[simp] theorem State.skipIf_cfg (s : State) (c : Bool) : (s.skipIf c).cfg = s.cfg := by cases c <;> rfl
@[simp] theorem State.skipIf_draws (s : State) (c : Bool) : (s.skipIf c).draws = s.draws := by cases c <;> rfl

end Sys2Proof.Machine
end

