-- ==== Sys2Proof/Laws/Ops.lean ====
section
/-! SUPPORT. One lemma per shared operation that says everything it does, for later proofs to cite. -/

namespace Sys2Proof.Machine

/-! ## Registers -/

/-- A register after a register write: the written one holds the byte, every other is as before. -/
theorem State.reg_setReg (s : State) (x r : Reg) (b : Byte) :
    (s.setReg x b).reg r = if r = x then b else s.reg r := by
  simp only [State.reg, State.setReg_v, Vector.getElem_set, Fin.ext_iff, eq_comm (a := r.val)]

@[simp] theorem State.reg_setReg_self (s : State) (x : Reg) (b : Byte) : (s.setReg x b).reg x = b := by
  simp [State.reg_setReg]

/-- Registers read the same in two states with the same register file. -/
theorem State.reg_congr {s t : State} (h : t.v = s.v) (r : Reg) : t.reg r = s.reg r := by
  simp [State.reg, h]

/-- Memory reads the same in two states with the same memory and configuration. -/
theorem State.readMem_congr {s t : State} (h : t.mem = s.mem) (hc : t.cfg = s.cfg) (a : Nat) :
    t.readMem a = s.readMem a := by
  simp [State.readMem, h, hc]

/-- A flag-writing instruction: VF holds the flag, X (if it is not 15) the result, every other register is as before (R141). -/
theorem State.reg_setResultFlag (s : State) (x r : Reg) (b : Byte) (c : Bool) :
    (s.setResultFlag x b c).reg r = if r = vF then flagByte c else if r = x then b else s.reg r := by
  simp [State.setResultFlag, State.reg_setReg]

/-! ## Call stack -/

/-- A stack entry after a push that has room. -/
theorem State.stackEntry_push (s : State) (a : Addr) (j : Nat) (h : s.sp < 16) :
    (s.push a).stackEntry j = if j = s.sp then a else s.stackEntry j := by
  simp only [State.stackEntry, State.push_stk]
  by_cases hj : j = s.sp
  · subst hj
    simp [h]
  · simp [hj, Vector.getElem?_setIfInBounds_ne (Ne.symm hj)]

/-! ## Display -/

/-- A pixel after a pixel write inside the display. -/
theorem Display.pixel_setPixel (d : Display) (y x y' x' : Nat) (b : Bool) (hy : y < 32) (hx : x < 64) :
    Display.pixel (Display.setPixel d y x b) y' x' = if y' = y ∧ x' = x then b else Display.pixel d y' x' := by
  unfold Display.setPixel
  rw [dif_pos ⟨hy, hx⟩]
  unfold Display.pixel
  by_cases h : y' < 32 ∧ x' < 64
  · rw [dif_pos h, dif_pos h]
    by_cases hyy : y' = y
    · subst hyy
      simp only [Vector.getElem_set_self, Vector.getElem_set, true_and, eq_comm]
    · simp [hyy, Ne.symm hyy]
  · rw [dif_neg h, dif_neg h]
    rw [if_neg (by rintro ⟨rfl, rfl⟩; exact h ⟨hy, hx⟩)]

@[simp] theorem Display.pixel_blank (y x : Nat) : Display.pixel Display.blank y x = false := by
  simp [Display.pixel, Display.blank]

/-- Two displays with the same pixels are the same display. -/
theorem Display.ext_pixel {d e : Display} (h : ∀ y x, Display.pixel d y x = Display.pixel e y x) : d = e := by
  apply Vector.ext
  intro y hy
  apply Vector.ext
  intro x hx
  simpa [Display.pixel, hy, hx] using h y x

/-! ## Keypad -/

/-- A key after a keypad write. -/
theorem State.keyDown_keyWrite (s : State) (k j : Key) (p : Bool) :
    (s.keyWrite k p).keyDown j = if j = k then p else s.keyDown j := by
  simp only [State.keyDown, State.keyWrite_key, Vector.getElem_set, Fin.ext_iff, eq_comm (a := j.val)]

/-- No key is latched exactly when none is pressed. -/
theorem State.lowestPressed_none (s : State) : s.lowestPressed = none ↔ ∀ k, s.keyDown k = false := by
  simp [State.lowestPressed]

/-! ## Faults and guards -/

/-- Taking a fault answers a next state in which only `FAULT` is new (R265). -/
theorem raiseFault_eq (s : State) (c : Cause) (op : Option Opcode) (a : Option Nat) :
    raiseFault s c op a = .next { s with fault := some ⟨c, s.pc, op, a⟩ } := rfl

/-- A range check whose addresses are in memory runs its body. -/
theorem State.guardData_in {s : State} {last : Nat} (op : Opcode) (k : Result) (h : s.index.toNat + last ≤ 4095) :
    s.guardData op last k = k := by
  have h' : s.dataAddr last ≤ 4095 := h
  simp [State.guardData, h']

/-- A range check whose addresses pass the memory takes MemoryOutOfRange with the first address past it. -/
theorem State.guardData_out {s : State} {last : Nat} (op : Opcode) (k : Result) (h : 4095 < s.index.toNat + last) :
    s.guardData op last k =
      .next { s with fault := some ⟨.memoryOutOfRange, s.pc, some op, some (max s.index.toNat 4096)⟩ } := by
  have h' : ¬ s.dataAddr last ≤ 4095 := Nat.not_le.2 h
  simp [State.guardData, h', raiseFault_eq, State.firstBadAddr]

/-- A key check on a register that names a key runs its body on that key. -/
theorem State.guardKey_in {s : State} {x : Reg} (op : Opcode) (k : Key → Result) (j : Key) (h : (s.reg x).toNat = j.val) :
    s.guardKey op x k = k j := by
  have h' : (s.reg x).toNat < 16 := h ▸ j.isLt
  rw [State.guardKey, dif_pos h']
  exact congrArg k (Fin.ext h)

/-- A key check on a register that names no key takes KeyIndexOutOfRange with the register's value. -/
theorem State.guardKey_out {s : State} {x : Reg} (op : Opcode) (k : Key → Result) (h : 15 < (s.reg x).toNat) :
    s.guardKey op x k =
      .next { s with fault := some ⟨.keyIndexOutOfRange, s.pc, some op, some (s.reg x).toNat⟩ } := by
  rw [State.guardKey, dif_neg (by omega)]
  rfl

/-- A draw whose rows lie in memory, or that draws no row, has its effect. -/
theorem execDrw_in {s : State} {x y : Reg} {n : Fin 16}
    (h : s.visibleRows y n = 0 ∨ s.index.toNat + s.visibleRows y n - 1 ≤ 4095) :
    execDrw x y n s = .next (drawEffect x y n s) := by
  unfold execDrw
  by_cases h0 : s.visibleRows y n = 0
  · rw [if_pos h0]
  · rw [if_neg h0]
    exact State.guardData_in _ _ (by omega)

/-- A draw with a row past the memory takes MemoryOutOfRange. -/
theorem execDrw_out {s : State} {x y : Reg} {n : Fin 16} (h0 : s.visibleRows y n ≠ 0)
    (h : 4095 < s.index.toNat + s.visibleRows y n - 1) :
    execDrw x y n s = .next { s with
      fault := some ⟨.memoryOutOfRange, s.pc, some (encode (.drw x y n)), some (max s.index.toNat 4096)⟩ } := by
  unfold execDrw
  rw [if_neg h0]
  exact State.guardData_out _ _ (by omega)

/-! ## Loads of registers -/

/-- The registers V0 to VX are those with a number up to X. -/
theorem mem_regsUpTo (x r : Reg) : r ∈ regsUpTo x ↔ r ≤ x := by
  revert x r
  decide

/-- Loading registers changes the register file alone. -/
theorem State.loadRegs_eq (s : State) (js : List Reg) : s.loadRegs js = { s with v := (s.loadRegs js).v } := by
  suffices h : ∀ (t : State), t = { s with v := t.v } →
      js.foldl (fun t j => t.setReg j (s.readMem (s.dataAddr j.val))) t =
        { s with v := (js.foldl (fun t j => t.setReg j (s.readMem (s.dataAddr j.val))) t).v } from h s rfl
  induction js with
  | nil => exact fun t h => h
  | cons j js ih =>
    intro t h
    simp only [List.foldl_cons]
    refine ih _ ?_
    rw [h]
    rfl

/-- After the loop of FX65 each listed register holds its byte of memory, every other is as before (R192). -/
theorem State.reg_loadRegs (s : State) (js : List Reg) (r : Reg) :
    (s.loadRegs js).reg r = if r ∈ js then s.readMem (s.dataAddr r.val) else s.reg r := by
  suffices h : ∀ (t : State), (js.foldl (fun t j => t.setReg j (s.readMem (s.dataAddr j.val))) t).reg r =
      if r ∈ js then s.readMem (s.dataAddr r.val) else t.reg r from h s
  induction js with
  | nil => intro t; simp
  | cons j js ih =>
    intro t
    rw [List.foldl_cons, ih, State.reg_setReg]
    by_cases h1 : r ∈ js
    · simp [h1]
    · by_cases h2 : r = j
      · subst h2
        simp
      · simp [h1, h2]

/-! ## Step -/

/-- What a step can do: nothing while halted, one instruction, an unmatched opcode or a fetch fault in Running, a sample of the
keypad while waiting (R90). -/
theorem step_cases (s : State) :
    (∃ r, s.fault = some r ∧ step s = .fault (.halted r)) ∨
    (s.fault = none ∧ s.sub = .running ∧ s.fetchOk = true ∧ ∃ i, decode s.fetchOp = .ok i ∧ step s = exec i s) ∨
    (s.fault = none ∧ s.sub = .running ∧ s.fetchOk = true ∧ (∃ e, decode s.fetchOp = .error e) ∧
      step s = execUnmatched s.fetchOp s) ∨
    (s.fault = none ∧ s.sub = .running ∧ s.fetchOk = false ∧ step s = execFetchFault s) ∨
    (s.fault = none ∧ ∃ x, s.sub = .awaitKeyPress x ∧ step s = .next (awaitPress x s)) ∨
    (s.fault = none ∧ ∃ x k, s.sub = .awaitKeyRelease x k ∧ step s = .next (awaitRelease x k s)) := by
  cases hf : s.fault with
  | some r => exact .inl ⟨r, rfl, by simp [step, engineStep, hf]⟩
  | none =>
    refine .inr ?_
    cases hs : s.sub with
    | awaitKeyPress x => exact .inr (.inr (.inr (.inl ⟨rfl, x, rfl, by simp [step, engineStep, hf, hs]⟩)))
    | awaitKeyRelease x k =>
      exact .inr (.inr (.inr (.inr ⟨rfl, x, k, rfl, by simp [step, engineStep, hf, hs]⟩)))
    | running =>
      cases ho : s.fetchOk with
      | false =>
        exact .inr (.inr (.inl ⟨rfl, rfl, rfl, by simp [step, engineStep, fetchDecodeExecute, hf, hs, ho]⟩))
      | true =>
        cases hd : decode s.fetchOp with
        | ok i =>
          exact .inl ⟨rfl, rfl, rfl, i, rfl, by simp [step, engineStep, fetchDecodeExecute, hf, hs, ho, hd]⟩
        | error e =>
          exact .inr (.inl ⟨rfl, rfl, rfl, ⟨e, rfl⟩, by
            simp [step, engineStep, fetchDecodeExecute, hf, hs, ho, hd]⟩)

end Sys2Proof.Machine
end

