-- ==== Sys2Proof/Laws/Decode.lean ====
section
/-! SUPPORT. The bits of a word built from its fields: its fields are what they were, and a row's mask leaves the selector fields. -/

namespace Sys2Proof

variable (t n : BitVec 4) (x y : Reg) (nn : Byte) (nnn : BitVec 12)

theorem getLsbD_wordNNN (i : Nat) :
    (wordNNN t nnn).getLsbD i = if i < 12 then nnn.getLsbD i else t.getLsbD (i - 12) :=
  BitVec.getLsbD_append

theorem getLsbD_wordXNN (i : Nat) :
    (wordXNN t x nn).getLsbD i =
      if i < 8 then nn.getLsbD i else if i - 8 < 4 then (BitVec.ofFin x : BitVec 4).getLsbD (i - 8)
      else t.getLsbD (i - 8 - 4) := by
  refine (BitVec.getLsbD_append (x := t ++ (BitVec.ofFin x : BitVec 4)) (y := nn)).trans ?_
  rw [BitVec.getLsbD_append]

theorem getLsbD_wordXYN (i : Nat) :
    (wordXYN t x y n).getLsbD i =
      if i < 4 then n.getLsbD i else if i - 4 < 4 then (BitVec.ofFin y : BitVec 4).getLsbD (i - 4)
      else if i - 4 - 4 < 4 then (BitVec.ofFin x : BitVec 4).getLsbD (i - 4 - 4) else t.getLsbD (i - 4 - 4 - 4) := by
  refine (BitVec.getLsbD_append (x := t ++ (BitVec.ofFin x : BitVec 4) ++ (BitVec.ofFin y : BitVec 4))
    (y := n)).trans ?_
  rw [BitVec.getLsbD_append, BitVec.getLsbD_append]

/-! ## Fields -/

@[simp] theorem opNNN_wordNNN : opNNN (wordNNN t nnn) = nnn := by
  apply BitVec.eq_of_getLsbD_eq
  intro i hi
  simp only [opNNN, BitVec.getLsbD_extractLsb', hi, decide_true, Bool.true_and, Nat.zero_add, getLsbD_wordNNN, if_true]

@[simp] theorem opNN_wordXNN : opNN (wordXNN t x nn) = nn := by
  apply BitVec.eq_of_getLsbD_eq
  intro i hi
  simp only [opNN, BitVec.getLsbD_extractLsb', hi, decide_true, Bool.true_and, Nat.zero_add, getLsbD_wordXNN, if_true]

@[simp] theorem opX_wordXNN : opX (wordXNN t x nn) = x := by
  have h : (wordXNN t x nn).extractLsb' 8 4 = (BitVec.ofFin x : BitVec 4) := by
    apply BitVec.eq_of_getLsbD_eq
    intro i hi
    simp only [BitVec.getLsbD_extractLsb', hi, decide_true, Bool.true_and, getLsbD_wordXNN]
    rw [if_neg (by omega), if_pos (by omega), show 8 + i - 8 = i by omega]
  simp only [opX, h]

@[simp] theorem opX_wordXYN : opX (wordXYN t x y n) = x := by
  have h : (wordXYN t x y n).extractLsb' 8 4 = (BitVec.ofFin x : BitVec 4) := by
    apply BitVec.eq_of_getLsbD_eq
    intro i hi
    simp only [BitVec.getLsbD_extractLsb', hi, decide_true, Bool.true_and, getLsbD_wordXYN]
    rw [if_neg (by omega), if_neg (by omega), if_pos (by omega), show 8 + i - 4 - 4 = i by omega]
  simp only [opX, h]

@[simp] theorem opY_wordXYN : opY (wordXYN t x y n) = y := by
  have h : (wordXYN t x y n).extractLsb' 4 4 = (BitVec.ofFin y : BitVec 4) := by
    apply BitVec.eq_of_getLsbD_eq
    intro i hi
    simp only [BitVec.getLsbD_extractLsb', hi, decide_true, Bool.true_and, getLsbD_wordXYN]
    rw [if_neg (by omega), if_pos (by omega), show 4 + i - 4 = i by omega]
  simp only [opY, h]

@[simp] theorem opN_wordXYN : opN (wordXYN t x y n) = n.toFin := by
  have h : (wordXYN t x y n).extractLsb' 0 4 = n := by
    apply BitVec.eq_of_getLsbD_eq
    intro i hi
    simp only [BitVec.getLsbD_extractLsb', hi, decide_true, Bool.true_and, getLsbD_wordXYN, Nat.zero_add, if_true]
  simp only [opN, h]

/-! ## Masks of R80 -/

theorem wordNNN_mask : wordNNN t nnn &&& 0xF000 = wordNNN t 0 := by
  apply BitVec.eq_of_getLsbD_eq
  intro i hi
  rw [BitVec.getLsbD_and, getLsbD_wordNNN, getLsbD_wordNNN]
  interval_cases i <;> simp

theorem wordXNN_mask : wordXNN t x nn &&& 0xF000 = wordXNN t 0 0 := by
  apply BitVec.eq_of_getLsbD_eq
  intro i hi
  rw [BitVec.getLsbD_and, getLsbD_wordXNN, getLsbD_wordXNN]
  interval_cases i <;> simp

theorem wordXNN_maskNN : wordXNN t x nn &&& 0xF0FF = wordXNN t 0 nn := by
  apply BitVec.eq_of_getLsbD_eq
  intro i hi
  rw [BitVec.getLsbD_and, getLsbD_wordXNN, getLsbD_wordXNN]
  interval_cases i <;> simp

theorem wordXYN_mask : wordXYN t x y n &&& 0xF000 = wordXYN t 0 0 0 := by
  apply BitVec.eq_of_getLsbD_eq
  intro i hi
  rw [BitVec.getLsbD_and, getLsbD_wordXYN, getLsbD_wordXYN]
  interval_cases i <;> simp

theorem wordXYN_maskN : wordXYN t x y n &&& 0xF00F = wordXYN t 0 0 n := by
  apply BitVec.eq_of_getLsbD_eq
  intro i hi
  rw [BitVec.getLsbD_and, getLsbD_wordXYN, getLsbD_wordXYN]
  interval_cases i <;> simp

end Sys2Proof
end

