-- ==== Sys2Proof/Laws/PerInstr.lean ====
section
/-! SUPPORT. The per-instruction family FieldsFit: every operand fits its field, and the opcode map has a row that applies to the
instruction's opcode and builds the instruction from it. -/

namespace Sys2Proof.Laws.FieldsFit

@[simp] theorem fits_X (x : Reg) : Operand.WellFormed ⟨.X, x.val⟩ = true := decide_eq_true x.isLt

@[simp] theorem fits_Y (y : Reg) : Operand.WellFormed ⟨.Y, y.val⟩ = true := decide_eq_true y.isLt

@[simp] theorem fits_N (n : Fin 16) : Operand.WellFormed ⟨.N, n.val⟩ = true := decide_eq_true n.isLt

@[simp] theorem fits_NN (nn : Byte) : Operand.WellFormed ⟨.NN, nn.toNat⟩ = true := decide_eq_true nn.isLt

@[simp] theorem fits_NNN (nnn : BitVec 12) : Operand.WellFormed ⟨.NNN, nnn.toNat⟩ = true := decide_eq_true nnn.isLt

/-- Every operand fits its field (R72), and a row of the opcode map applies to the instruction's opcode and reads the instruction back (R80). -/
def Statement (i : Instr) : Prop :=
  i.WellFormed = true ∧ ∃ k : Fin opcodeMap.length, opcodeMap[k].applies (encode i) = true ∧ opcodeMap[k].build (encode i) = i

theorem cls : Statement .cls := by
  refine ⟨by simp [Instr.WellFormed, Instr.operands], ⟨0, by decide⟩, ?_, ?_⟩
  · rfl
  · rfl

theorem ret : Statement .ret := by
  refine ⟨by simp [Instr.WellFormed, Instr.operands], ⟨1, by decide⟩, ?_, ?_⟩
  · rfl
  · rfl

theorem jp (nnn : BitVec 12) : Statement (.jp nnn) := by
  refine ⟨by simp [Instr.WellFormed, Instr.operands], ⟨2, by decide⟩, ?_, ?_⟩
  · exact beq_iff_eq.2 ((wordNNN_mask _ nnn).trans rfl)
  · exact congrArg _ (opNNN_wordNNN _ nnn)

theorem call (nnn : BitVec 12) : Statement (.call nnn) := by
  refine ⟨by simp [Instr.WellFormed, Instr.operands], ⟨3, by decide⟩, ?_, ?_⟩
  · exact beq_iff_eq.2 ((wordNNN_mask _ nnn).trans rfl)
  · exact congrArg _ (opNNN_wordNNN _ nnn)

theorem seImm (x : Reg) (nn : Byte) : Statement (.seImm x nn) := by
  refine ⟨by simp [Instr.WellFormed, Instr.operands], ⟨4, by decide⟩, ?_, ?_⟩
  · exact beq_iff_eq.2 ((wordXNN_mask _ x nn).trans rfl)
  · exact congrArg₂ _ (opX_wordXNN _ x nn) (opNN_wordXNN _ x nn)

theorem sneImm (x : Reg) (nn : Byte) : Statement (.sneImm x nn) := by
  refine ⟨by simp [Instr.WellFormed, Instr.operands], ⟨5, by decide⟩, ?_, ?_⟩
  · exact beq_iff_eq.2 ((wordXNN_mask _ x nn).trans rfl)
  · exact congrArg₂ _ (opX_wordXNN _ x nn) (opNN_wordXNN _ x nn)

theorem seReg (x : Reg) (y : Reg) : Statement (.seReg x y) := by
  refine ⟨by simp [Instr.WellFormed, Instr.operands], ⟨6, by decide⟩, ?_, ?_⟩
  · exact beq_iff_eq.2 ((wordXYN_maskN _ _ x y).trans rfl)
  · exact congrArg₂ _ (opX_wordXYN _ _ x y) (opY_wordXYN _ _ x y)

theorem ldImm (x : Reg) (nn : Byte) : Statement (.ldImm x nn) := by
  refine ⟨by simp [Instr.WellFormed, Instr.operands], ⟨7, by decide⟩, ?_, ?_⟩
  · exact beq_iff_eq.2 ((wordXNN_mask _ x nn).trans rfl)
  · exact congrArg₂ _ (opX_wordXNN _ x nn) (opNN_wordXNN _ x nn)

theorem addImm (x : Reg) (nn : Byte) : Statement (.addImm x nn) := by
  refine ⟨by simp [Instr.WellFormed, Instr.operands], ⟨8, by decide⟩, ?_, ?_⟩
  · exact beq_iff_eq.2 ((wordXNN_mask _ x nn).trans rfl)
  · exact congrArg₂ _ (opX_wordXNN _ x nn) (opNN_wordXNN _ x nn)

theorem ldReg (x : Reg) (y : Reg) : Statement (.ldReg x y) := by
  refine ⟨by simp [Instr.WellFormed, Instr.operands], ⟨9, by decide⟩, ?_, ?_⟩
  · exact beq_iff_eq.2 ((wordXYN_maskN _ _ x y).trans rfl)
  · exact congrArg₂ _ (opX_wordXYN _ _ x y) (opY_wordXYN _ _ x y)

theorem orReg (x : Reg) (y : Reg) : Statement (.orReg x y) := by
  refine ⟨by simp [Instr.WellFormed, Instr.operands], ⟨10, by decide⟩, ?_, ?_⟩
  · exact beq_iff_eq.2 ((wordXYN_maskN _ _ x y).trans rfl)
  · exact congrArg₂ _ (opX_wordXYN _ _ x y) (opY_wordXYN _ _ x y)

theorem andReg (x : Reg) (y : Reg) : Statement (.andReg x y) := by
  refine ⟨by simp [Instr.WellFormed, Instr.operands], ⟨11, by decide⟩, ?_, ?_⟩
  · exact beq_iff_eq.2 ((wordXYN_maskN _ _ x y).trans rfl)
  · exact congrArg₂ _ (opX_wordXYN _ _ x y) (opY_wordXYN _ _ x y)

theorem xorReg (x : Reg) (y : Reg) : Statement (.xorReg x y) := by
  refine ⟨by simp [Instr.WellFormed, Instr.operands], ⟨12, by decide⟩, ?_, ?_⟩
  · exact beq_iff_eq.2 ((wordXYN_maskN _ _ x y).trans rfl)
  · exact congrArg₂ _ (opX_wordXYN _ _ x y) (opY_wordXYN _ _ x y)

theorem addReg (x : Reg) (y : Reg) : Statement (.addReg x y) := by
  refine ⟨by simp [Instr.WellFormed, Instr.operands], ⟨13, by decide⟩, ?_, ?_⟩
  · exact beq_iff_eq.2 ((wordXYN_maskN _ _ x y).trans rfl)
  · exact congrArg₂ _ (opX_wordXYN _ _ x y) (opY_wordXYN _ _ x y)

theorem sub (x : Reg) (y : Reg) : Statement (.sub x y) := by
  refine ⟨by simp [Instr.WellFormed, Instr.operands], ⟨14, by decide⟩, ?_, ?_⟩
  · exact beq_iff_eq.2 ((wordXYN_maskN _ _ x y).trans rfl)
  · exact congrArg₂ _ (opX_wordXYN _ _ x y) (opY_wordXYN _ _ x y)

theorem shr (x : Reg) (y : Reg) : Statement (.shr x y) := by
  refine ⟨by simp [Instr.WellFormed, Instr.operands], ⟨15, by decide⟩, ?_, ?_⟩
  · exact beq_iff_eq.2 ((wordXYN_maskN _ _ x y).trans rfl)
  · exact congrArg₂ _ (opX_wordXYN _ _ x y) (opY_wordXYN _ _ x y)

theorem subn (x : Reg) (y : Reg) : Statement (.subn x y) := by
  refine ⟨by simp [Instr.WellFormed, Instr.operands], ⟨16, by decide⟩, ?_, ?_⟩
  · exact beq_iff_eq.2 ((wordXYN_maskN _ _ x y).trans rfl)
  · exact congrArg₂ _ (opX_wordXYN _ _ x y) (opY_wordXYN _ _ x y)

theorem shl (x : Reg) (y : Reg) : Statement (.shl x y) := by
  refine ⟨by simp [Instr.WellFormed, Instr.operands], ⟨17, by decide⟩, ?_, ?_⟩
  · exact beq_iff_eq.2 ((wordXYN_maskN _ _ x y).trans rfl)
  · exact congrArg₂ _ (opX_wordXYN _ _ x y) (opY_wordXYN _ _ x y)

theorem sneReg (x : Reg) (y : Reg) : Statement (.sneReg x y) := by
  refine ⟨by simp [Instr.WellFormed, Instr.operands], ⟨18, by decide⟩, ?_, ?_⟩
  · exact beq_iff_eq.2 ((wordXYN_maskN _ _ x y).trans rfl)
  · exact congrArg₂ _ (opX_wordXYN _ _ x y) (opY_wordXYN _ _ x y)

theorem ldI (nnn : BitVec 12) : Statement (.ldI nnn) := by
  refine ⟨by simp [Instr.WellFormed, Instr.operands], ⟨19, by decide⟩, ?_, ?_⟩
  · exact beq_iff_eq.2 ((wordNNN_mask _ nnn).trans rfl)
  · exact congrArg _ (opNNN_wordNNN _ nnn)

theorem jpV0 (nnn : BitVec 12) : Statement (.jpV0 nnn) := by
  refine ⟨by simp [Instr.WellFormed, Instr.operands], ⟨20, by decide⟩, ?_, ?_⟩
  · exact beq_iff_eq.2 ((wordNNN_mask _ nnn).trans rfl)
  · exact congrArg _ (opNNN_wordNNN _ nnn)

theorem rnd (x : Reg) (nn : Byte) : Statement (.rnd x nn) := by
  refine ⟨by simp [Instr.WellFormed, Instr.operands], ⟨21, by decide⟩, ?_, ?_⟩
  · exact beq_iff_eq.2 ((wordXNN_mask _ x nn).trans rfl)
  · exact congrArg₂ _ (opX_wordXNN _ x nn) (opNN_wordXNN _ x nn)

theorem drw (x : Reg) (y : Reg) (n : Fin 16) : Statement (.drw x y n) := by
  refine ⟨by simp [Instr.WellFormed, Instr.operands], ⟨22, by decide⟩, ?_, ?_⟩
  · exact beq_iff_eq.2 ((wordXYN_mask _ _ x y).trans rfl)
  · show Instr.drw (opX (wordXYN 0xD x y (BitVec.ofFin n))) (opY (wordXYN 0xD x y (BitVec.ofFin n))) (opN (wordXYN 0xD x y (BitVec.ofFin n))) = .drw x y n
    rw [opX_wordXYN, opY_wordXYN, opN_wordXYN]

theorem skp (x : Reg) : Statement (.skp x) := by
  refine ⟨by simp [Instr.WellFormed, Instr.operands], ⟨23, by decide⟩, ?_, ?_⟩
  · exact beq_iff_eq.2 ((wordXNN_maskNN _ x _).trans rfl)
  · exact congrArg _ (opX_wordXNN _ x _)

theorem sknp (x : Reg) : Statement (.sknp x) := by
  refine ⟨by simp [Instr.WellFormed, Instr.operands], ⟨24, by decide⟩, ?_, ?_⟩
  · exact beq_iff_eq.2 ((wordXNN_maskNN _ x _).trans rfl)
  · exact congrArg _ (opX_wordXNN _ x _)

theorem ldVxDT (x : Reg) : Statement (.ldVxDT x) := by
  refine ⟨by simp [Instr.WellFormed, Instr.operands], ⟨25, by decide⟩, ?_, ?_⟩
  · exact beq_iff_eq.2 ((wordXNN_maskNN _ x _).trans rfl)
  · exact congrArg _ (opX_wordXNN _ x _)

theorem ldVxK (x : Reg) : Statement (.ldVxK x) := by
  refine ⟨by simp [Instr.WellFormed, Instr.operands], ⟨26, by decide⟩, ?_, ?_⟩
  · exact beq_iff_eq.2 ((wordXNN_maskNN _ x _).trans rfl)
  · exact congrArg _ (opX_wordXNN _ x _)

theorem ldDTVx (x : Reg) : Statement (.ldDTVx x) := by
  refine ⟨by simp [Instr.WellFormed, Instr.operands], ⟨27, by decide⟩, ?_, ?_⟩
  · exact beq_iff_eq.2 ((wordXNN_maskNN _ x _).trans rfl)
  · exact congrArg _ (opX_wordXNN _ x _)

theorem ldSTVx (x : Reg) : Statement (.ldSTVx x) := by
  refine ⟨by simp [Instr.WellFormed, Instr.operands], ⟨28, by decide⟩, ?_, ?_⟩
  · exact beq_iff_eq.2 ((wordXNN_maskNN _ x _).trans rfl)
  · exact congrArg _ (opX_wordXNN _ x _)

theorem addI (x : Reg) : Statement (.addI x) := by
  refine ⟨by simp [Instr.WellFormed, Instr.operands], ⟨29, by decide⟩, ?_, ?_⟩
  · exact beq_iff_eq.2 ((wordXNN_maskNN _ x _).trans rfl)
  · exact congrArg _ (opX_wordXNN _ x _)

theorem ldF (x : Reg) : Statement (.ldF x) := by
  refine ⟨by simp [Instr.WellFormed, Instr.operands], ⟨30, by decide⟩, ?_, ?_⟩
  · exact beq_iff_eq.2 ((wordXNN_maskNN _ x _).trans rfl)
  · exact congrArg _ (opX_wordXNN _ x _)

theorem ldB (x : Reg) : Statement (.ldB x) := by
  refine ⟨by simp [Instr.WellFormed, Instr.operands], ⟨31, by decide⟩, ?_, ?_⟩
  · exact beq_iff_eq.2 ((wordXNN_maskNN _ x _).trans rfl)
  · exact congrArg _ (opX_wordXNN _ x _)

theorem ldMemVx (x : Reg) : Statement (.ldMemVx x) := by
  refine ⟨by simp [Instr.WellFormed, Instr.operands], ⟨32, by decide⟩, ?_, ?_⟩
  · exact beq_iff_eq.2 ((wordXNN_maskNN _ x _).trans rfl)
  · exact congrArg _ (opX_wordXNN _ x _)

theorem ldVxMem (x : Reg) : Statement (.ldVxMem x) := by
  refine ⟨by simp [Instr.WellFormed, Instr.operands], ⟨33, by decide⟩, ?_, ?_⟩
  · exact beq_iff_eq.2 ((wordXNN_maskNN _ x _).trans rfl)
  · exact congrArg _ (opX_wordXNN _ x _)

end Sys2Proof.Laws.FieldsFit
end

