-- ==== Sys2Proof/Safety.lean ====
section
/-! DEFINITION. The terms claims are stated in: the invariant of the machine, what a step leaves unchanged, and the whole-machine tables. -/

namespace Sys2Proof.Machine

/-- The invariant of the machine: what holds of every state a load can lead to. -/
structure State.Inv (s : State) : Prop where
  /-- The configuration is one R7 allows. -/
  config : s.cfg.WellFormed = true
  /-- Memory is in canonical form. -/
  memory : Memory.wf s.cfg.font s.mem = true
  /-- `0 <= SP <= STACK_CAPACITY` (R27). -/
  depth : s.sp ≤ s.cfg.stackCapacity
  /-- PC never wraps: no rule writes more than 0x10FE (R26). -/
  pcBound : s.pc.toNat ≤ 0x10FE
  /-- A stacked return address is at most 4096 (R110). -/
  stackBound : ∀ j, j < s.sp → (s.stackEntry j).toNat ≤ 4096
  /-- Only a step in Running raises a fault, and PC stays at the faulting opcode (R260, R265). -/
  faultPlace : ∀ r, s.fault = some r → r.pc = s.pc ∧ s.sub = .running

/-- A piece of the state that a frame statement names. -/
inductive Part where
  | pc
  | reg (r : Reg)
  | index
  | byte (a : Nat)
  | stack (j : Nat)
  | sp
  | pixel (y x : Nat)
  | key (k : Key)
  | dt
  | st
  | redraw
  | sub
  | tone
  | fault
  | cfg
  | draws
  deriving DecidableEq, Repr

/-- The part reads the same in `t` as in `s`. -/
def Same (s t : State) : Part → Prop
  | .pc => t.pc = s.pc
  | .reg r => t.reg r = s.reg r
  | .index => t.index = s.index
  | .byte a => t.readMem a = s.readMem a
  | .stack j => t.stackEntry j = s.stackEntry j
  | .sp => t.sp = s.sp
  | .pixel y x => Display.pixel t.disp y x = Display.pixel s.disp y x
  | .key k => t.keyDown k = s.keyDown k
  | .dt => t.dt = s.dt
  | .st => t.st = s.st
  | .redraw => t.redraw = s.redraw
  | .sub => t.sub = s.sub
  | .tone => t.tone = s.tone
  | .fault => t.fault = s.fault
  | .cfg => t.cfg = s.cfg
  | .draws => t.draws = s.draws

/-- From `s` to `t` every part but those listed reads the same: every other register, every byte of memory, every stack entry, pixel,
key, timer and status. -/
def FrameExcept (s t : State) (parts : List Part) : Prop := ∀ p, p ∉ parts → Same s t p

/-- As `FrameExcept`, for an instruction that stores `len` bytes from address `a` up: every byte outside them reads the same too. -/
def FrameExceptStore (s t : State) (parts : List Part) (a len : Nat) : Prop :=
  ∀ p, p ∉ parts → (∀ b, p = .byte b → b < a ∨ a + len ≤ b) → Same s t p

/-- As `FrameExcept`, for an instruction that changes the display: pixels are said apart. -/
def FrameExceptDisplay (s t : State) (parts : List Part) : Prop :=
  ∀ p, p ∉ parts → (∀ y x, p ≠ .pixel y x) → Same s t p

/-- As `FrameExcept`, for an instruction that loads the registers V0 to Vx. -/
def FrameExceptRegsUpTo (s t : State) (parts : List Part) (x : Reg) : Prop :=
  ∀ p, p ∉ parts → (∀ r, p = .reg r → x < r) → Same s t p

/-- `t` is `s` with the fault taken, precise (R265): the record is set, PC is the faulting opcode's own address, and nothing else
differs. -/
def FaultTaken (s t : State) (cause : Cause) (opcode : Option Opcode) (addr : Option Nat) : Prop :=
  t = { s with fault := some { cause := cause, pc := s.pc, opcode := opcode, addr := addr } }

end Sys2Proof.Machine

namespace Sys2Proof

/-- The general registers an instruction may write, FX0A's at its completion apart (R22, R23). -/
def Instr.writesReg (v : Variant) : Instr → Reg → Prop
  | .ldImm x _, r => r = x
  | .addImm x _, r => r = x
  | .ldReg x _, r => r = x
  | .orReg x _, r => r = x ∨ (v = .original ∧ r = vF)
  | .andReg x _, r => r = x ∨ (v = .original ∧ r = vF)
  | .xorReg x _, r => r = x ∨ (v = .original ∧ r = vF)
  | .addReg x _, r => r = x ∨ r = vF
  | .sub x _, r => r = x ∨ r = vF
  | .shr x _, r => r = x ∨ r = vF
  | .subn x _, r => r = x ∨ r = vF
  | .shl x _, r => r = x ∨ r = vF
  | .rnd x _, r => r = x
  | .drw _ _ _, r => r = vF
  | .ldVxDT x, r => r = x
  | .ldVxMem x, r => r ≤ x
  | .cls, _ => False
  | .ret, _ => False
  | .jp _, _ => False
  | .call _, _ => False
  | .seImm _ _, _ => False
  | .sneImm _ _, _ => False
  | .seReg _ _, _ => False
  | .sneReg _ _, _ => False
  | .ldI _, _ => False
  | .jpV0 _, _ => False
  | .skp _, _ => False
  | .sknp _, _ => False
  | .ldVxK _, _ => False
  | .ldDTVx _, _ => False
  | .ldSTVx _, _ => False
  | .addI _, _ => False
  | .ldF _, _ => False
  | .ldB _, _ => False
  | .ldMemVx _, _ => False

/-- The one fault an instruction can raise of its own (R260, R262). -/
def Instr.ownFault : Instr → Option Machine.Cause
  | .ret => some .stackUnderflow
  | .call _ => some .stackOverflow
  | .drw _ _ _ => some .memoryOutOfRange
  | .ldB _ => some .memoryOutOfRange
  | .ldMemVx _ => some .memoryOutOfRange
  | .ldVxMem _ => some .memoryOutOfRange
  | .addI _ => some .indexOverflow
  | .skp _ => some .keyIndexOutOfRange
  | .sknp _ => some .keyIndexOutOfRange
  | .cls => none
  | .jp _ => none
  | .seImm _ _ => none
  | .sneImm _ _ => none
  | .seReg _ _ => none
  | .ldImm _ _ => none
  | .addImm _ _ => none
  | .ldReg _ _ => none
  | .orReg _ _ => none
  | .andReg _ _ => none
  | .xorReg _ _ => none
  | .addReg _ _ => none
  | .sub _ _ => none
  | .shr _ _ => none
  | .subn _ _ => none
  | .shl _ _ => none
  | .sneReg _ _ => none
  | .ldI _ => none
  | .jpV0 _ => none
  | .rnd _ _ => none
  | .ldVxDT _ => none
  | .ldVxK _ => none
  | .ldDTVx _ => none
  | .ldSTVx _ => none
  | .ldF _ => none

/-- The instructions whose behaviour the variant changes (R3). -/
def Instr.hasQuirk : Instr → Bool
  | .orReg _ _ => true
  | .andReg _ _ => true
  | .xorReg _ _ => true
  | .shr _ _ => true
  | .shl _ _ => true
  | .ldMemVx _ => true
  | .ldVxMem _ => true
  | .cls => false
  | .ret => false
  | .jp _ => false
  | .call _ => false
  | .seImm _ _ => false
  | .sneImm _ _ => false
  | .seReg _ _ => false
  | .ldImm _ _ => false
  | .addImm _ _ => false
  | .ldReg _ _ => false
  | .addReg _ _ => false
  | .sub _ _ => false
  | .subn _ _ => false
  | .sneReg _ _ => false
  | .ldI _ => false
  | .jpV0 _ => false
  | .rnd _ _ => false
  | .drw _ _ _ => false
  | .skp _ => false
  | .sknp _ => false
  | .ldVxDT _ => false
  | .ldVxK _ => false
  | .ldDTVx _ => false
  | .ldSTVx _ => false
  | .addI _ => false
  | .ldF _ => false
  | .ldB _ => false

end Sys2Proof

namespace Sys2Proof.Machine

/-- Apply `f` to the state of a next outcome. -/
def Result.mapNext (f : State → State) : Result → Result
  | .next t => .next (f t)
  | .fault r => .fault r
  | .refused r => .refused r

/-- The sprite bit DXYN applies to cell (y, x): bit 7 - (x - ox) of the byte at `I + (y - oy)`, for a row below `oy + n` and a column
below `ox + 8`; elsewhere 0 (R215). -/
def State.spriteBit (s : State) (oy ox n y x : Nat) : Bool :=
  decide (oy ≤ y ∧ y < oy + n ∧ ox ≤ x ∧ x < ox + 8) && (s.readMem (s.index.toNat + (y - oy))).getLsbD (7 - (x - ox))

/-- The prose of R84: the opcodes that are no instruction. -/
abbrev unmatchedProse (op : Opcode) : Prop :=
  (op.toNat < 0x1000 ∧ op ≠ 0x00E0 ∧ op ≠ 0x00EE) ∨
  ((op.toNat / 0x1000 = 5 ∨ op.toNat / 0x1000 = 9) ∧ op.toNat % 16 ≠ 0) ∨
  (op.toNat / 0x1000 = 8 ∧ op.toNat % 16 ∈ [0x8, 0x9, 0xA, 0xB, 0xC, 0xD, 0xF]) ∨
  (op.toNat / 0x1000 = 0xE ∧ op.toNat % 256 ∉ [0x9E, 0xA1]) ∨
  (op.toNat / 0x1000 = 0xF ∧ op.toNat % 256 ∉ [0x07, 0x0A, 0x15, 0x18, 0x1E, 0x29, 0x33, 0x55, 0x65])

end Sys2Proof.Machine
end

