-- ==== Sys2Proof/Certificates/Slice0/Obligations.lean ====
section
/-! DEFINITION. The statements for the provers.  A docstring cites the rule a statement formalises; where a rule marks a clause as its
own decision (D1 to D32), as derived, or as general knowledge, the statement says so and has basis 'derived'. -/

open Sys2Proof Sys2Proof.Machine

/-! ## Shapes of effect shared by several statements -/

/-- The instruction answers a next state with V[X] = r, PC past the opcode, and nothing else changed. -/
def Sys2Proof.Machine.WritesOnly (i : Instr) (s : State) (x : Reg) (r : Byte) : Prop :=
  ∃ t, exec i s = .next t ∧ t.reg x = r ∧ t.pc = s.pc + 2 ∧ FrameExcept s t [.pc, .reg x]

/-- A logic instruction with result r (R151): VF ends 0 under ORIGINAL and is not changed under EXTENDED unless it is V[X]; V[X] = r
unless ORIGINAL's flag overwrites it; nothing else changes. -/
def Sys2Proof.Machine.LogicEffect (i : Instr) (s : State) (x : Reg) (r : Byte) : Prop :=
  ∃ t, exec i s = .next t ∧ t.pc = s.pc + 2 ∧
    (s.cfg.variant = .original →
      t.reg vF = 0 ∧ (x ≠ vF → t.reg x = r) ∧ FrameExcept s t [.pc, .reg x, .reg vF]) ∧
    (s.cfg.variant = .extended → t.reg x = r ∧ FrameExcept s t [.pc, .reg x])

/-- A flag-writing instruction with result r and flag condition c (R155): VF = 1 if c, else 0, X = 15 included; V[X] = r if X is not
15; nothing else changes. -/
def Sys2Proof.Machine.FlagEffect (i : Instr) (s : State) (x : Reg) (r : Byte) (c : Prop) : Prop :=
  ∃ t, exec i s = .next t ∧ t.pc = s.pc + 2 ∧ (c → t.reg vF = 1) ∧ (¬ c → t.reg vF = 0) ∧ (x ≠ vF → t.reg x = r) ∧
    FrameExcept s t [.pc, .reg x, .reg vF]

/-- A skip on condition c: PC passes one more opcode if c, and nothing else changes. -/
def Sys2Proof.Machine.SkipEffect (i : Instr) (s : State) (c : Prop) : Prop :=
  ∃ t, exec i s = .next t ∧ (c → t.pc = s.pc + 4) ∧ (¬ c → t.pc = s.pc + 2) ∧ FrameExcept s t [.pc]

/-- The instruction takes a precise fault (R265). -/
def Sys2Proof.Machine.TakesFault (i : Instr) (s : State) (cause : Cause) (addr : Option Nat) : Prop :=
  ∃ t, exec i s = .next t ∧ FaultTaken s t cause (some (encode i)) addr

/-! ## Decoding and encoding -/

/-- Words written out from the encodings of R80 decode to their instructions, one or more per family. -/
def Obligations.SpecWordsDecode : Prop :=
  decode 0x00E0 = .ok .cls ∧ decode 0x00EE = .ok .ret ∧ decode 0x1208 = .ok (.jp 0x208) ∧
  decode 0x3310 = .ok (.seImm 3 0x10) ∧ decode 0x5120 = .ok (.seReg 1 2) ∧ decode 0x6A05 = .ok (.ldImm 10 0x05) ∧
  decode 0x8F14 = .ok (.addReg 15 1) ∧ decode 0x801E = .ok (.shl 0 1) ∧ decode 0xA200 = .ok (.ldI 0x200) ∧
  decode 0xD125 = .ok (.drw 1 2 5) ∧ decode 0xE59E = .ok (.skp 5) ∧ decode 0xF315 = .ok (.ldDTVx 3) ∧
  decode 0xF155 = .ok (.ldMemVx 1) ∧ decode 0x8008 = .error (.unmatched 0x8008)

/-- Decoding what the encoder writes gives the instruction back, for every instruction and every operand (R72, R80), as a word and as the
bytes memory holds. -/
def Obligations.DecodeOfEncodeIsIdentity : Prop :=
  ∀ i : Instr, i.WellFormed = true ∧ decode (encode i) = .ok i ∧
    ∀ rest, decodeBytes (encodeBytes i ++ rest) = .ok (i, rest)

/-- A word that decodes is the word its instruction encodes to: no bit of it is ignored (R80). -/
def Obligations.EncodeOfDecodeIsIdentity : Prop :=
  ∀ (op : Opcode) (i : Instr), decode op = .ok i → encode i = op

/-- No two rows of the opcode map apply to one opcode, so a row that applies is the one that decodes (R80). -/
def Obligations.OpcodeMapRowsNeverOverlap : Prop :=
  opcodeMap.length = 34 ∧
  ∀ (op : Opcode) (j k : Fin opcodeMap.length), opcodeMap[j].applies op = true →
    decode op = .ok (opcodeMap[j].build op) ∧ (opcodeMap[k].applies op = true → j = k)

/-- The opcodes no row matches are exactly those the prose of R84 lists (its own decisions D4, D25, D32). -/
def Obligations.UnmatchedOpcodesAreExactlyTheListed : Prop :=
  ∀ op : Opcode, decode op = .error (.unmatched op) ↔ unmatchedProse op

/-! ## The engine -/

/-- A step in Running runs the instruction that the two bytes at PC decode to: it is exec of it on the same state.  exec takes the state
before the advance of R92; each meaning makes the advance (notes/assumptions/10).  The byte order is the one R55 takes from general knowledge. -/
def Obligations.StepRunsTheDecodedInstruction : Prop :=
  ∀ (s : State) (i : Instr), s.fault = none → s.sub = .running → s.pc.toNat + 1 ≤ 4095 →
    decodeBytes [s.readMem s.pc.toNat, s.readMem (s.pc.toNat + 1)] = .ok (i, []) → step s = exec i s

/-- An opcode stored at PC, high byte first, is what the next fetch reads (R62 derived; R55's byte order is from general knowledge), and
a step from `withFetchWord` runs the instruction that `decodeTableWord` names (notes/assumptions/9). -/
def Obligations.StoredOpcodeIsFetchedAndRun : Prop :=
  (∀ (s : State) (op : Opcode), Memory.wf s.cfg.font s.mem = true → s.pc.toNat + 1 ≤ 4095 →
    (s.storeOpcode op).fetchOp = op) ∧
  (∀ (s : State) (w : Nat) (i : Instr), Memory.wf s.cfg.font s.mem = true → decodeTableWord 16 w = some i →
    step (s.withFetchWord 16 w) = exec i (s.withFetchWord 16 w))

/-- A fetch that would pass the last byte faults (R91; decisions D5, D9), precisely. -/
def Obligations.FetchPastMemoryFaults : Prop :=
  ∀ s : State, s.fault = none → s.sub = .running → 4095 < s.pc.toNat + 1 →
    ∃ t, step s = .next t ∧
      FaultTaken s t .fetchOutOfRange none (some (if s.pc.toNat = 4095 then 4096 else s.pc.toNat))

/-- An unmatched opcode only advances PC under NOP and raises UnknownOpcode under FAULT (R97; decision D4). -/
def Obligations.UnmatchedOpcodeFollowsThePolicy : Prop :=
  ∀ (s : State) (op : Opcode), s.fault = none → s.sub = .running → s.pc.toNat + 1 ≤ 4095 → s.fetchOp = op →
    unmatchedProse op →
    (s.cfg.unknownPolicy = .nop → ∃ t, step s = .next t ∧ t.pc = s.pc + 2 ∧ FrameExcept s t [.pc]) ∧
    (s.cfg.unknownPolicy = .fault → ∃ t, step s = .next t ∧ FaultTaken s t .unknownOpcode (some op) none)

/-- Key-wait steps (R98; decisions D14, D15, D16): while no key is latched the lowest pressed one is latched; a latched key that is
released is written to V[x] and the engine runs again; otherwise nothing changes. -/
def Obligations.KeyWaitSteps : Prop :=
  ∀ (s : State) (x : Reg), s.fault = none →
    (s.sub = .awaitKeyPress x → (∀ k, s.keyDown k = false) → step s = .next s) ∧
    (∀ k, s.sub = .awaitKeyPress x → s.keyDown k = true → (∀ j, j < k → s.keyDown j = false) →
      ∃ t, step s = .next t ∧ t.sub = .awaitKeyRelease x k ∧ FrameExcept s t [.sub]) ∧
    (∀ k, s.sub = .awaitKeyRelease x k → s.keyDown k = true → step s = .next s) ∧
    (∀ k, s.sub = .awaitKeyRelease x k → s.keyDown k = false →
      ∃ t, step s = .next t ∧ (t.reg x).toNat = k.val ∧ t.sub = .running ∧ FrameExcept s t [.sub, .reg x])

/-- While FAULT is not none no step and no timer update is enabled, and no host action but a load changes FAULT (R266; decision D19). -/
def Obligations.HaltedMachineStaysHalted : Prop :=
  ∀ (s : State) (r : FaultRecord), s.fault = some r →
    step s = .fault (.halted r) ∧ s.timerUpdate = s ∧
    ∀ a : HostAction, (∀ v src, a ≠ .load v src) → (s.host a).fault = some r

/-- A step is never refused, answers a next state whenever no fault is held, and stops only when halted (R100, derived; R90). -/
def Obligations.StepAlwaysAnswersUnlessHalted : Prop :=
  ∀ s : State, (s.fault = none ↔ ∃ t, step s = .next t) ∧ (∀ r, step s ≠ .refused r) ∧
    ∀ f, step s = .fault f → ∃ r, s.fault = some r ∧ f = .halted r

/-! ## Faults -/

/-- Faults are precise (R265; decision D18): a step that raises one changes nothing but FAULT, and the record holds PC. -/
def Obligations.FaultsArePrecise : Prop :=
  ∀ (s t : State), step s = .next t → s.fault = none → t.fault ≠ none →
    ∃ cause op addr, FaultTaken s t cause op addr

/-- The faults of instructions are those of R260's table: an instruction raises only its own cause, with its own opcode (R260, R262; the
causes are decisions D3, D5, D6, D13). -/
def Obligations.InstructionsRaiseOnlyTheirOwnFault : Prop :=
  ∀ (i : Instr) (s t : State) (r : FaultRecord), exec i s = .next t → s.fault = none → t.fault = some r →
    i.ownFault = some r.cause ∧ r.opcode = some (encode i) ∧ r.pc = s.pc

/-- A data access past address 4095 takes MemoryOutOfRange before any effect, with the first address past memory that the instruction
would touch (R58; decision D5): FX33, FX55, FX65, and DXYN for the rows it would draw (decision D11). -/
def Obligations.DataAccessPastMemoryFaults : Prop :=
  ∀ (s : State) (x y : Reg) (n : Fin 16),
    (4095 < s.index.toNat + 2 → TakesFault (.ldB x) s .memoryOutOfRange (some (max s.index.toNat 4096))) ∧
    (4095 < s.index.toNat + x.val → TakesFault (.ldMemVx x) s .memoryOutOfRange (some (max s.index.toNat 4096))) ∧
    (4095 < s.index.toNat + x.val → TakesFault (.ldVxMem x) s .memoryOutOfRange (some (max s.index.toNat 4096))) ∧
    (0 < n.val → 4095 < s.index.toNat + min n.val (32 - (s.reg y).toNat % 32) - 1 →
      TakesFault (.drw x y n) s .memoryOutOfRange (some (max s.index.toNat 4096)))

/-! ## Control flow -/

/-- 1NNN and BNNN (R111, R126): encoding, target, nothing else changed; a target past 4094 fails at the next fetch; a jump to itself
leaves the state as it is; the sum of BNNN never wraps and is at most 0x10FE. -/
def Obligations.JumpsGoToTheirTarget : Prop :=
  ∀ (nnn : BitVec 12) (s : State),
    (encode (.jp nnn)).toNat = 0x1000 + nnn.toNat ∧
    (∃ t, exec (.jp nnn) s = .next t ∧ t.pc.toNat = nnn.toNat ∧ FrameExcept s t [.pc] ∧
      (nnn.toNat = 0xFFF → t.fetchOk = false) ∧ (nnn.toNat = s.pc.toNat → t = s)) ∧
    (encode (.jpV0 nnn)).toNat = 0xB000 + nnn.toNat ∧
    (∃ t, exec (.jpV0 nnn) s = .next t ∧ t.pc.toNat = nnn.toNat + (s.reg 0).toNat ∧ t.pc.toNat ≤ 0x10FE ∧
      FrameExcept s t [.pc] ∧ (4094 < nnn.toNat + (s.reg 0).toNat → t.fetchOk = false))

/-- 3XNN (R115). -/
def Obligations.SkipIfEqualImmediate : Prop :=
  ∀ (x : Reg) (nn : Byte) (s : State),
    (encode (.seImm x nn)).toNat = 0x3000 + 0x100 * x.val + nn.toNat ∧ SkipEffect (.seImm x nn) s (s.reg x = nn)

/-- 4XNN; R116 marks its relation as derived. -/
def Obligations.SkipIfNotEqualImmediate : Prop :=
  ∀ (x : Reg) (nn : Byte) (s : State),
    (encode (.sneImm x nn)).toNat = 0x4000 + 0x100 * x.val + nn.toNat ∧ SkipEffect (.sneImm x nn) s (s.reg x ≠ nn)

/-- 5XY0 and 9XY0 (R117, R118): the skips, and that the same top nibbles with a low nibble other than 0 are unmatched. -/
def Obligations.SkipsComparingRegisters : Prop :=
  (∀ (x y : Reg) (s : State),
    (encode (.seReg x y)).toNat = 0x5000 + 0x100 * x.val + 0x10 * y.val ∧
    SkipEffect (.seReg x y) s (s.reg x = s.reg y) ∧
    (encode (.sneReg x y)).toNat = 0x9000 + 0x100 * x.val + 0x10 * y.val ∧
    SkipEffect (.sneReg x y) s (s.reg x ≠ s.reg y)) ∧
  ∀ op : Opcode, (op.toNat / 0x1000 = 5 ∨ op.toNat / 0x1000 = 9) → op.toNat % 0x10 ≠ 0 →
    decode op = .error (.unmatched op)

/-- 00EE (R110; the underflow fault is decision D3). -/
def Obligations.ReturnPopsOrUnderflows : Prop :=
  ∀ s : State,
    (s.sp = 0 → TakesFault .ret s .stackUnderflow none) ∧
    (0 < s.sp → ∃ t, exec .ret s = .next t ∧ t.pc = s.stackEntry (s.sp - 1) ∧ t.sp = s.sp - 1 ∧
      FrameExcept s t [.pc, .sp])

/-- 2NNN (R112; capacity and overflow fault are decisions D2, D3). -/
def Obligations.CallPushesOrOverflows : Prop :=
  ∀ (nnn : BitVec 12) (s : State), s.cfg.WellFormed = true →
    (s.sp = s.cfg.stackCapacity → TakesFault (.call nnn) s .stackOverflow none) ∧
    (s.sp < s.cfg.stackCapacity → ∃ t, exec (.call nnn) s = .next t ∧ t.pc.toNat = nnn.toNat ∧
      t.stackEntry s.sp = s.pc + 2 ∧ t.sp = s.sp + 1 ∧ FrameExcept s t [.pc, .sp, .stack s.sp])

/-- The call stack is LIFO (R27, R28): whatever runs between, a return with the stack as the call left it goes to the opcode after the call and
restores the depth (decisions D2, D3). -/
def Obligations.ReturnComesBackAfterCall : Prop :=
  ∀ (nnn : BitVec 12) (s : State), s.cfg.WellFormed = true → s.sp < s.cfg.stackCapacity →
    ∃ t, exec (.call nnn) s = .next t ∧
      ∀ u : State, u.sp = t.sp → u.stk = t.stk →
        ∃ w, exec .ret u = .next w ∧ w.pc = s.pc + 2 ∧ w.sp = s.sp

/-! ## Arithmetic and logic -/

/-- 6XNN and 8XY0 (R145, R150). -/
def Obligations.LoadsAndCopiesWriteOneRegister : Prop :=
  ∀ (x y : Reg) (nn : Byte) (s : State),
    (encode (.ldImm x nn)).toNat = 0x6000 + 0x100 * x.val + nn.toNat ∧ WritesOnly (.ldImm x nn) s x nn ∧
    (encode (.ldReg x y)).toNat = 0x8000 + 0x100 * x.val + 0x10 * y.val ∧ WritesOnly (.ldReg x y) s x (s.reg y)

/-- 7XNN (R146): the sum wraps and no flag changes. -/
def Obligations.AddImmediateWrapsWithoutFlag : Prop :=
  ∀ (x : Reg) (nn : Byte) (s : State),
    (encode (.addImm x nn)).toNat = 0x7000 + 0x100 * x.val + nn.toNat ∧
    WritesOnly (.addImm x nn) s x (BitVec.ofNat 8 (((s.reg x).toNat + nn.toNat) % 256))

/-- 8XY1, 8XY2, 8XY3 (R151, R152, R153), under both variants.  That VF ends 0 for X = 15 under ORIGINAL is decision D10 (R141,
notes/assumptions/16). -/
def Obligations.LogicClearsFlagUnderOriginal : Prop :=
  ∀ (x y : Reg) (s : State),
    (encode (.orReg x y)).toNat = 0x8001 + 0x100 * x.val + 0x10 * y.val ∧
    LogicEffect (.orReg x y) s x (s.reg x ||| s.reg y) ∧
    (encode (.andReg x y)).toNat = 0x8002 + 0x100 * x.val + 0x10 * y.val ∧
    LogicEffect (.andReg x y) s x (s.reg x &&& s.reg y) ∧
    (encode (.xorReg x y)).toNat = 0x8003 + 0x100 * x.val + 0x10 * y.val ∧
    LogicEffect (.xorReg x y) s x (s.reg x ^^^ s.reg y)

/-- 8XY4 (R155): truncated sum, VF the carry.  That operands are sampled before any write and that VF ends with the flag for X = 15
is decision D10 (R95, R141, notes/assumptions/16). -/
def Obligations.AddSetsCarry : Prop :=
  ∀ (x y : Reg) (s : State),
    (encode (.addReg x y)).toNat = 0x8004 + 0x100 * x.val + 0x10 * y.val ∧
    FlagEffect (.addReg x y) s x (BitVec.ofNat 8 (((s.reg x).toNat + (s.reg y).toNat) % 256))
      ((s.reg x).toNat + (s.reg y).toNat > 255)

/-- 8XY5 and 8XY7 (R156, R157): wrapped difference, VF = 1 exactly when there is no borrow.  That operands are
sampled before any write and that VF ends with the flag for X = 15 is decision D10 (R95, R141, notes/assumptions/16). -/
def Obligations.SubtractSetsNotBorrow : Prop :=
  ∀ (x y : Reg) (s : State),
    (encode (.sub x y)).toNat = 0x8005 + 0x100 * x.val + 0x10 * y.val ∧
    FlagEffect (.sub x y) s x (BitVec.ofNat 8 (((s.reg x).toNat + 256 - (s.reg y).toNat) % 256))
      ((s.reg x).toNat ≥ (s.reg y).toNat) ∧
    (encode (.subn x y)).toNat = 0x8007 + 0x100 * x.val + 0x10 * y.val ∧
    FlagEffect (.subn x y) s x (BitVec.ofNat 8 (((s.reg y).toNat + 256 - (s.reg x).toNat) % 256))
      ((s.reg y).toNat ≥ (s.reg x).toNat)

/-- 8XY6 and 8XYE (R158, R159): source V[Y] under ORIGINAL and V[X] under EXTENDED, VF the bit shifted out.  That the
source is the old value, VF's included, and that VF ends with the flag for X = 15 is decision D10 (R95, R141, notes/assumptions/16). -/
def Obligations.ShiftsMoveOneBitOut : Prop :=
  ∀ (x y : Reg) (s : State) (src : Byte),
    (s.cfg.variant = .original → src = s.reg y) → (s.cfg.variant = .extended → src = s.reg x) →
    (encode (.shr x y)).toNat = 0x8006 + 0x100 * x.val + 0x10 * y.val ∧
    FlagEffect (.shr x y) s x (BitVec.ofNat 8 (src.toNat / 2)) (src.toNat % 2 = 1) ∧
    (encode (.shl x y)).toNat = 0x800E + 0x100 * x.val + 0x10 * y.val ∧
    FlagEffect (.shl x y) s x (BitVec.ofNat 8 (src.toNat * 2 % 256)) (src.toNat ≥ 128)

/-- CXNN (R170): V[X] is the drawn byte masked, for every draw.  One free draw per execution is decision D22 (R172);
that the draw is the free byte of the counter, and that the counter moves on, is the model's own choice (notes/assumptions/4). -/
def Obligations.RandomByteIsMasked : Prop :=
  ∀ (x : Reg) (nn : Byte) (s : State),
    (encode (.rnd x nn)).toNat = 0xC000 + 0x100 * x.val + nn.toNat ∧
    exec (.rnd x nn) s = .next (rndWith (Config.randomByte s.draws) x nn s) ∧
    ∀ r : Byte, (rndWith r x nn s).reg x = r &&& nn ∧ (rndWith r x nn s).pc = s.pc + 2 ∧
      (rndWith r x nn s).draws = s.draws + 1 ∧ FrameExcept s (rndWith r x nn s) [.pc, .reg x, .draws]

/-! ## Index register and memory -/

/-- ANNN and FX29 (R180, R186): I = NNN; I = V[X] * 5, the whole register, no mask. -/
def Obligations.IndexLoads : Prop :=
  ∀ (nnn : BitVec 12) (x : Reg) (s : State),
    (encode (.ldI nnn)).toNat = 0xA000 + nnn.toNat ∧
    (∃ t, exec (.ldI nnn) s = .next t ∧ t.index.toNat = nnn.toNat ∧ t.pc = s.pc + 2 ∧ FrameExcept s t [.pc, .index]) ∧
    (encode (.ldF x)).toNat = 0xF029 + 0x100 * x.val ∧
    (∃ t, exec (.ldF x) s = .next t ∧ t.index.toNat = (s.reg x).toNat * 5 ∧ t.pc = s.pc + 2 ∧
      FrameExcept s t [.pc, .index])

/-- FX1E (R182): the sum if it fits 16 bits, else IndexOverflow (decision D6). -/
def Obligations.AddToIndexOrOverflows : Prop :=
  ∀ (x : Reg) (s : State),
    (s.index.toNat + (s.reg x).toNat ≤ 0xFFFF → ∃ t, exec (.addI x) s = .next t ∧
      t.index.toNat = s.index.toNat + (s.reg x).toNat ∧ t.pc = s.pc + 2 ∧ FrameExcept s t [.pc, .index]) ∧
    (0xFFFF < s.index.toNat + (s.reg x).toNat → TakesFault (.addI x) s .indexOverflow none)

/-- FX33 in range (R188; the range check is decision D5): hundreds, tens and ones at I, I+1, I+2; every other byte and I as before. -/
def Obligations.StoreBcdDigits : Prop :=
  ∀ (x : Reg) (s : State), Memory.wf s.cfg.font s.mem = true → s.index.toNat + 2 ≤ 4095 →
    ∃ t, exec (.ldB x) s = .next t ∧
      (t.readMem s.index.toNat).toNat = (s.reg x).toNat / 100 ∧
      (t.readMem (s.index.toNat + 1)).toNat = (s.reg x).toNat / 10 % 10 ∧
      (t.readMem (s.index.toNat + 2)).toNat = (s.reg x).toNat % 10 ∧
      t.pc = s.pc + 2 ∧ FrameExceptStore s t [.pc] s.index.toNat 3

/-- FX55 in range (R190; direction derived, range check decision D5): V0..VX at I..I+X, every other byte as before; I moves by X+1
under ORIGINAL and not under EXTENDED. -/
def Obligations.StoreRegistersUpToX : Prop :=
  ∀ (x : Reg) (s : State), Memory.wf s.cfg.font s.mem = true → s.index.toNat + x.val ≤ 4095 →
    ∃ t, exec (.ldMemVx x) s = .next t ∧
      (∀ j : Reg, j ≤ x → t.readMem (s.index.toNat + j.val) = s.reg j) ∧
      (s.cfg.variant = .original → t.index.toNat = s.index.toNat + x.val + 1) ∧
      (s.cfg.variant = .extended → t.index = s.index) ∧
      t.pc = s.pc + 2 ∧ FrameExceptStore s t [.pc, .index] s.index.toNat (x.val + 1)

/-- FX65 in range (R192; direction derived, range check decision D5): V0..VX from I..I+X, the other registers and all of memory as before; I moves
by X+1 under ORIGINAL and not under EXTENDED. -/
def Obligations.LoadRegistersUpToX : Prop :=
  ∀ (x : Reg) (s : State), s.index.toNat + x.val ≤ 4095 →
    ∃ t, exec (.ldVxMem x) s = .next t ∧
      (∀ j : Reg, j ≤ x → t.reg j = s.readMem (s.index.toNat + j.val)) ∧
      (s.cfg.variant = .original → t.index.toNat = s.index.toNat + x.val + 1) ∧
      (s.cfg.variant = .extended → t.index = s.index) ∧
      t.pc = s.pc + 2 ∧ FrameExceptRegsUpTo s t [.pc, .index] x

/-- FX65 after FX55 at the same I gives the registers back (R190, R192; the same decisions). -/
def Obligations.LoadAfterStoreRestoresRegisters : Prop :=
  ∀ (x : Reg) (s t : State), Memory.wf s.cfg.font s.mem = true → s.index.toNat + x.val ≤ 4095 →
    exec (.ldMemVx x) s = .next t →
    ∀ u : State, u.mem = t.mem → u.cfg = t.cfg → u.index = s.index →
      ∃ w, exec (.ldVxMem x) u = .next w ∧ ∀ j : Reg, j ≤ x → w.reg j = s.reg j

/-- Two canonical memories that read the same everywhere are the same data: equality of states is equality of what can be read
(the model's form of the memory of R50, notes/assumptions/2). -/
def Obligations.CanonicalMemoryIsUnique : Prop :=
  ∀ (font : Vector Byte 80) (m m' : Memory), Memory.wf font m = true → Memory.wf font m' = true →
    (∀ a, Memory.read font m a = Memory.read font m' a) → m = m'

/-- Only FX33 and FX55 write memory, and only the bytes R51 lists. -/
def Obligations.OnlyTheTwoStoresWriteMemory : Prop :=
  ∀ (s t : State) (a : Nat), Memory.wf s.cfg.font s.mem = true → step s = .next t → t.readMem a ≠ s.readMem a →
    s.sub = .running ∧ s.index.toNat ≤ a ∧
    ((∃ x, decode s.fetchOp = .ok (.ldB x) ∧ a ≤ s.index.toNat + 2) ∨
     (∃ x, decode s.fetchOp = .ok (.ldMemVx x) ∧ a ≤ s.index.toNat + x.val))

/-! ## Display -/

/-- 00E0 (R210). -/
def Obligations.ClearDarkensEveryPixel : Prop :=
  encode .cls = 0x00E0 ∧
  ∀ s : State, ∃ t, exec .cls s = .next t ∧ (∀ y x, Display.pixel t.disp y x = false) ∧ t.redraw = true ∧
    t.pc = s.pc + 2 ∧ FrameExceptDisplay s t [.pc, .redraw]

/-- DXYN, its loops against a closed form (R215; decisions D11, D12): with the rows drawn in memory, every pixel is XORed with the sprite bit over it,
clipped at the right and bottom edges, VF = 1 exactly when a lit pixel met a sprite bit, REDRAW is set, and nothing else changes. -/
def Obligations.DrawIsXorWithCollision : Prop :=
  ∀ (x y : Reg) (n : Fin 16) (s : State),
    (min n.val (32 - (s.reg y).toNat % 32) = 0 ∨
      s.index.toNat + min n.val (32 - (s.reg y).toNat % 32) - 1 ≤ 4095) →
    ∃ t, exec (.drw x y n) s = .next t ∧
      (∀ py px, py < 32 → px < 64 →
        Display.pixel t.disp py px =
          (Display.pixel s.disp py px ^^ s.spriteBit ((s.reg y).toNat % 32) ((s.reg x).toNat % 64) n.val py px)) ∧
      ((∃ py px, py < 32 ∧ px < 64 ∧ Display.pixel s.disp py px = true ∧
        s.spriteBit ((s.reg y).toNat % 32) ((s.reg x).toNat % 64) n.val py px = true) → t.reg vF = 1) ∧
      ((∀ py px, py < 32 → px < 64 → Display.pixel s.disp py px = true →
        s.spriteBit ((s.reg y).toNat % 32) ((s.reg x).toNat % 64) n.val py px = false) → t.reg vF = 0) ∧
      t.redraw = true ∧ t.pc = s.pc + 2 ∧ FrameExceptDisplay s t [.pc, .redraw, .reg vF]

/-- Drawing the same sprite twice at the same place restores the display (R215, corner case; decisions D11, D12), if VF is not an origin
register; the second draw collides if a sprite bit fell on a cell that was unlit at first (notes/assumptions/13). -/
def Obligations.DrawTwiceRestoresTheDisplay : Prop :=
  ∀ (x y : Reg) (n : Fin 16) (s t u : State), x ≠ vF → y ≠ vF → s.fault = none →
    exec (.drw x y n) s = .next t → t.fault = none → exec (.drw x y n) t = .next u →
    u.disp = s.disp ∧
    ((∃ py px, py < 32 ∧ px < 64 ∧ Display.pixel s.disp py px = false ∧
      s.spriteBit ((s.reg y).toNat % 32) ((s.reg x).toNat % 64) n.val py px = true) → u.reg vF = 1)

/-- The display changes only by 00E0 and DXYN (R29, R218), and no step clears REDRAW (R30; decision D17). -/
def Obligations.DisplayChangesOnlyByClearAndDraw : Prop :=
  ∀ s t : State, step s = .next t →
    (t.disp ≠ s.disp ∨ t.redraw ≠ s.redraw →
      s.sub = .running ∧ (decode s.fetchOp = .ok .cls ∨ ∃ x y n, decode s.fetchOp = .ok (.drw x y n))) ∧
    (s.redraw = true → t.redraw = true)

/-- Nothing an instruction other than DXYN does depends on the display, and nothing any instruction does depends on ST, REDRAW or
TONE (R29, R30, R32, R36): changing them before changes nothing else after. -/
def Obligations.OutputsAreNeverReadBack : Prop :=
  ∀ (i : Instr) (s : State) (b : Byte) (r q : Bool) (d : Display),
    Result.mapNext (fun t => { t with st := 0, redraw := false, tone := false })
        (exec i { s with st := b, redraw := r, tone := q }) =
      Result.mapNext (fun t => { t with st := 0, redraw := false, tone := false }) (exec i s) ∧
    ((∀ x y n, i ≠ .drw x y n) →
      Result.mapNext (fun t => { t with disp := Display.blank }) (exec i { s with disp := d }) =
        Result.mapNext (fun t => { t with disp := Display.blank }) (exec i s))

/-! ## Keypad and timers -/

/-- EX9E and EXA1 (R230, R231, R232; the fault is decision D13, EXA1's case is derived): a skip on the latch for an index up to 15, else
KeyIndexOutOfRange with the index. -/
def Obligations.KeySkipsOrIndexFault : Prop :=
  ∀ (x : Reg) (s : State),
    (∀ k : Key, (s.reg x).toNat = k.val →
      SkipEffect (.skp x) s (s.keyDown k = true) ∧ SkipEffect (.sknp x) s (s.keyDown k = false)) ∧
    (15 < (s.reg x).toNat →
      TakesFault (.skp x) s .keyIndexOutOfRange (some (s.reg x).toNat) ∧
      TakesFault (.sknp x) s .keyIndexOutOfRange (some (s.reg x).toNat))

/-- FX07, FX15, FX18 (R236, R237, R238; which of the three does what is from general knowledge, R240, notes/assumptions/12). -/
def Obligations.TimerMoves : Prop :=
  ∀ (x : Reg) (s : State),
    WritesOnly (.ldVxDT x) s x s.dt ∧
    (∃ t, exec (.ldDTVx x) s = .next t ∧ t.dt = s.reg x ∧ t.pc = s.pc + 2 ∧ FrameExcept s t [.pc, .dt]) ∧
    (∃ t, exec (.ldSTVx x) s = .next t ∧ t.st = s.reg x ∧ t.pc = s.pc + 2 ∧ FrameExcept s t [.pc, .st])

/-- FX0A (R241; decisions D14, D15, D16): the wait is explicit state, PC stays past the opcode, a key already held is latched at once, the
lowest one if several are. -/
def Obligations.WaitForKeyEntersTheSubState : Prop :=
  ∀ (x : Reg) (s : State),
    ((∀ k, s.keyDown k = false) → ∃ t, exec (.ldVxK x) s = .next t ∧ t.sub = .awaitKeyPress x ∧ t.pc = s.pc + 2 ∧
      FrameExcept s t [.pc, .sub]) ∧
    (∀ k, s.keyDown k = true → (∀ j, j < k → s.keyDown j = false) →
      ∃ t, exec (.ldVxK x) s = .next t ∧ t.sub = .awaitKeyRelease x k ∧ t.pc = s.pc + 2 ∧ FrameExcept s t [.pc, .sub])

/-- The timer update (R280): not while a fault is held; otherwise DT and ST fall by 1 but not below 0, TONE says whether ST was above 0
before, and nothing else changes. -/
def Obligations.TimerUpdateCountsDownAndClamps : Prop :=
  ∀ s : State,
    (s.fault ≠ none → s.timerUpdate = s) ∧
    (s.fault = none →
      s.timerUpdate.dt.toNat = s.dt.toNat - 1 ∧ s.timerUpdate.st.toNat = s.st.toNat - 1 ∧
      (s.timerUpdate.tone = true ↔ 0 < s.st.toNat) ∧ FrameExcept s s.timerUpdate [.dt, .st, .tone])

/-- One frame tick lowers DT exactly once (R285; decisions D19, D21), for every instruction quota (IPF, notes/assumptions/5) in which no
FX15 runs and which ends without a fault.  That FX15 alone writes DT is from general knowledge (R240, D30, notes/assumptions/12). -/
def Obligations.FrameTickLowersDelayTimerOnce : Prop :=
  ∀ (s : State) (e : Exchange),
    (∀ k x, k < s.cfg.ipf → (runQuota k s).sub = .running → decode (runQuota k s).fetchOp ≠ .ok (.ldDTVx x)) →
    (runQuota s.cfg.ipf s).fault = none → (s.frameTick e).1.dt.toNat = s.dt.toNat - 1

/-! ## Whole-machine rules -/

/-- A general register changes only where R22 and R23 say (derived): by an instruction that writes it, or at the end of a key wait. -/
def Obligations.RegistersChangeOnlyByTheirWriters : Prop :=
  (∀ (i : Instr) (s t : State) (r : Reg), exec i s = .next t → t.reg r ≠ s.reg r → i.writesReg s.cfg.variant r) ∧
  ∀ (s t : State) (r : Reg), step s = .next t → t.reg r ≠ s.reg r →
    (∃ k, s.sub = .awaitKeyRelease r k ∧ s.keyDown k = false) ∨
    (s.sub = .running ∧ ∃ i, decode s.fetchOp = .ok i ∧ i.writesReg s.cfg.variant r)

/-- No step changes the keypad latch, TONE or the configuration; DT changes only by FX15 and ST only by FX18 (R31, R32, R35).
Which of the two opcodes writes which timer is from general knowledge (R32, R240, D30, notes/assumptions/12). -/
def Obligations.StepLeavesHostStateAlone : Prop :=
  ∀ s t : State, step s = .next t →
    t.key = s.key ∧ t.tone = s.tone ∧ t.cfg = s.cfg ∧
    (t.dt ≠ s.dt → s.sub = .running ∧ ∃ x, decode s.fetchOp = .ok (.ldDTVx x)) ∧
    (t.st ≠ s.st → s.sub = .running ∧ ∃ x, decode s.fetchOp = .ok (.ldSTVx x))

/-- The configuration is fixed for the life of a loaded program (R7, R35; that the model holds it in State is notes/assumptions/1): no
frame tick and no host action but a load writes it, and a load writes the variant only. -/
def Obligations.ConfigurationIsFixedBetweenLoads : Prop :=
  ∀ s : State,
    (∀ e, (s.frameTick e).1.cfg = s.cfg) ∧
    (∀ a : HostAction, (∀ v src, a ≠ .load v src) → (s.host a).cfg = s.cfg) ∧
    ∀ v src, (s.host (.load v src)).cfg = s.cfg ∨ (s.host (.load v src)).cfg = { s.cfg with variant := v }

/-- The variant changes only the quirks R3 lists (decision D25): every other instruction does the same under both variants. -/
def Obligations.VariantChangesOnlyTheQuirks : Prop :=
  ∀ (i : Instr) (s : State) (v : Variant), i.hasQuirk = false →
    exec i { s with cfg := { s.cfg with variant := v } } =
      Result.mapNext (fun t => { t with cfg := { t.cfg with variant := v } }) (exec i s)

/-- Under EXTENDED the Y field of 8XY6 and 8XYE is ignored (R86, derived). -/
def Obligations.ExtendedShiftsIgnoreY : Prop :=
  ∀ (x y y' : Reg) (s : State), s.cfg.variant = .extended →
    exec (.shr x y) s = exec (.shr x y') s ∧ exec (.shl x y) s = exec (.shl x y') s

/-- The invariant holds right after reset. -/
def Obligations.ResetMeetsTheInvariant : Prop := State.reset.Inv

/-- Every step keeps the invariant: canonical memory, depth within the capacity, PC at most 0x10FE, stacked addresses at most 4096, and a fault
only at its own opcode (R26, R27, R265). -/
def Obligations.StepKeepsTheInvariant : Prop :=
  ∀ s t : State, s.Inv → step s = .next t → t.Inv

/-- Every host action keeps the invariant, a load of any image included (R291, R300). -/
def Obligations.HostActionsKeepTheInvariant : Prop :=
  ∀ (s : State) (a : HostAction), s.Inv → (s.host a).Inv

/-- What a load leaves (R300, R301, R39; decision D24): the font in 0..79, the ROM from 512 on, 0 elsewhere, every register 0, PC 0x200, the
caller's configuration, and nothing of the state before; an image past 3584 bytes or an unreadable one leaves the state unchanged. -/
def Obligations.LoadBuildsTheResetState : Prop :=
  ∀ (s : State) (v : Variant) (rom : List Byte),
    (rom.length ≤ 3584 →
      (∀ k, k < rom.length → (s.reload v (some rom)).readMem (512 + k) = rom.getD k 0) ∧
      (∀ a (h : a < 80), (s.reload v (some rom)).readMem a = s.cfg.font[a]) ∧
      (∀ a, 80 ≤ a → (a < 512 ∨ 512 + rom.length ≤ a) → (s.reload v (some rom)).readMem a = 0) ∧
      s.reload v (some rom) = { State.reset with
        mem := (s.reload v (some rom)).mem, cfg := { s.cfg with variant := v }, draws := s.draws }) ∧
    (3584 < rom.length → s.reload v (some rom) = s) ∧ s.reload v none = s

/-- The values R39 gives for a load of an empty ROM hold in State.reset (decision D24; the font bytes and the configuration are the
defaults, notes/assumptions/3 and notes/assumptions/8). -/
def Obligations.ResetHoldsTheLoadValues : Prop :=
  (∀ a (h : a < 80), State.reset.readMem a = defaultFont[a]) ∧ (∀ a, 80 ≤ a → State.reset.readMem a = 0) ∧
  (∀ r, State.reset.reg r = 0) ∧ State.reset.index = 0 ∧ State.reset.pc = 512 ∧ State.reset.sp = 0 ∧
  (∀ j, State.reset.stackEntry j = 0) ∧ (∀ y x, Display.pixel State.reset.disp y x = false) ∧
  (∀ k, State.reset.keyDown k = false) ∧ State.reset.dt = 0 ∧ State.reset.st = 0 ∧ State.reset.redraw = false ∧
  State.reset.sub = .running ∧ State.reset.tone = false ∧ State.reset.fault = none
end

