-- ==== Sys2Proof/Tests/Slice0.lean ====
section
/-! SUPPORT. The model's own tests.  Expected results come from spec/95_test_vectors.md (its vector's name stands with each test), from
the encodings of R80, or from the rule named.  Then the witnesses: for each statement with hypotheses, data that meet them. -/

namespace Sys2Proof.Tests

open Sys2Proof Sys2Proof.Machine

/-- The outcome is a next state with the property. -/
def gives (r : Result) (p : State → Bool) : Bool :=
  match r with
  | .next t => p t
  | .fault _ => false
  | .refused _ => false

/-- Registers set over a state. -/
def withRegs (s : State) (l : List (Reg × Byte)) : State := l.foldl (fun t p => t.setReg p.1 p.2) s

/-- The state right after reset with registers set. -/
def regs (l : List (Reg × Byte)) : State := withRegs State.reset l

/-- The EXTENDED variant. -/
def extended (s : State) : State := { s with cfg := { s.cfg with variant := .extended } }

/-- One step with the opcode at PC. -/
def run (s : State) (w : Nat) : Result := step (s.withFetchWord 16 w)

/-- One step of the opcode leads to the fault with the cause and address, PC at the opcode. -/
def faults (s : State) (w : Nat) (c : Cause) (a : Option Nat) : Bool :=
  gives (run s w) fun t => decide (t.fault = some ⟨c, s.pc, some (BitVec.ofNat 16 w), a⟩ ∧ t.pc = s.pc)

/-- A state in which key k is down. -/
def keyed (s : State) (k : Key) : State := s.keyWrite k true

/-! ## Ill-formed terms -/

theorem test_operand_x_too_wide : Operand.WellFormed ⟨.X, 16⟩ = false := by decide
theorem test_operand_y_too_wide : Operand.WellFormed ⟨.Y, 16⟩ = false := by decide
theorem test_operand_n_too_wide : Operand.WellFormed ⟨.N, 16⟩ = false := by decide
theorem test_operand_nn_too_wide : Operand.WellFormed ⟨.NN, 256⟩ = false := by decide
theorem test_operand_nnn_too_wide : Operand.WellFormed ⟨.NNN, 4096⟩ = false := by decide
theorem test_capacity_too_small : Config.WellFormed { defaultConfig with stackCapacity := 11 } = false := by decide
theorem test_capacity_too_large : Config.WellFormed { defaultConfig with stackCapacity := 17 } = false := by decide
theorem test_quota_zero : Config.WellFormed { defaultConfig with ipf := 0 } = false := by decide
theorem test_default_config_well_formed : defaultConfig.WellFormed = true := by decide
theorem test_rom_too_large : romFits (List.replicate 3585 0) = false := by
  rw [romFits, List.length_replicate]; decide
theorem test_rom_largest : romFits (List.replicate 3584 0) = true := by
  rw [romFits, List.length_replicate]; decide
theorem test_memory_not_rising : Memory.wf defaultFont [(0x201, 1), (0x200, 1)] = false := by decide
theorem test_memory_lists_reset_content : Memory.wf defaultFont [(0x200, 0)] = false := by decide
theorem test_memory_past_end : Memory.wf defaultFont [(4096, 1)] = false := by decide

/-! ## Decoding, words written out from the encodings of R80 -/

theorem test_decode_fixed : decode 0b0000000011100000 = .ok .cls ∧ decode 0b0000000011101110 = .ok .ret := by decide
theorem test_decode_address : decode 0b0001001000001000 = .ok (.jp 0x208) ∧ decode 0b0010001000010000 = .ok (.call 0x210) ∧
    decode 0b1010001000000000 = .ok (.ldI 0x200) ∧ decode 0b1011001100000000 = .ok (.jpV0 0x300) := by decide
theorem test_decode_immediate : decode 0b0011001100010000 = .ok (.seImm 3 0x10) ∧
    decode 0b0100001100010000 = .ok (.sneImm 3 0x10) ∧ decode 0b0110101000000101 = .ok (.ldImm 10 5) ∧
    decode 0b0111000000000011 = .ok (.addImm 0 3) ∧ decode 0b1100001100001111 = .ok (.rnd 3 0x0F) := by decide
theorem test_decode_compare : decode 0b0101000100100000 = .ok (.seReg 1 2) ∧
    decode 0b1001000100100000 = .ok (.sneReg 1 2) := by decide
theorem test_decode_logic : decode 0b1000000000010000 = .ok (.ldReg 0 1) ∧ decode 0b1000000000010001 = .ok (.orReg 0 1) ∧
    decode 0b1000000000010010 = .ok (.andReg 0 1) ∧ decode 0b1000000000010011 = .ok (.xorReg 0 1) := by decide
theorem test_decode_arith : decode 0b1000111100010100 = .ok (.addReg 15 1) ∧ decode 0b1000000000010101 = .ok (.sub 0 1) ∧
    decode 0b1000000000010110 = .ok (.shr 0 1) ∧ decode 0b1000000000010111 = .ok (.subn 0 1) ∧
    decode 0b1000000000011110 = .ok (.shl 0 1) := by decide
theorem test_decode_sprite : decode 0b1101000100100101 = .ok (.drw 1 2 5) := by decide
theorem test_decode_keypad : decode 0b1110010110011110 = .ok (.skp 5) ∧ decode 0b1110010110100001 = .ok (.sknp 5) ∧
    decode 0b1111001100001010 = .ok (.ldVxK 3) := by decide
theorem test_decode_timer : decode 0b1111001100000111 = .ok (.ldVxDT 3) ∧ decode 0b1111001100010101 = .ok (.ldDTVx 3) ∧
    decode 0b1111001100011000 = .ok (.ldSTVx 3) := by decide
theorem test_decode_index : decode 0b1111001000011110 = .ok (.addI 2) ∧ decode 0b1111010000101001 = .ok (.ldF 4) ∧
    decode 0b1111000000110011 = .ok (.ldB 0) ∧ decode 0b1111000101010101 = .ok (.ldMemVx 1) ∧
    decode 0b1111001001100101 = .ok (.ldVxMem 2) := by decide
/-- E5, E7, E8, E9 and R84. -/
theorem test_decode_unmatched : decode 0x8008 = .error (.unmatched 0x8008) ∧ decode 0x5121 = .error (.unmatched 0x5121) ∧
    decode 0x0123 = .error (.unmatched 0x0123) ∧ decode 0x00FF = .error (.unmatched 0x00FF) ∧
    decode 0xF075 = .error (.unmatched 0xF075) := by decide
theorem test_decode_truncated : decodeBytes [0x6A] = .error .truncated := by decide
theorem test_decode_big_endian : decodeBytes [0x6A, 0x05, 0xFF] = .ok (.ldImm 10 5, [0xFF]) := by decide

/-! ## Engine -/

theorem test_E1 : gives (run State.reset 0x6A05) (fun t => t.reg 10 == 5 && t.pc == 0x202) = true := by decide
theorem test_E2 : gives (run { State.reset with pc := 0xFFE } 0x00E0) (fun t => t.pc == 0x1000 && t.redraw) = true := by decide
theorem test_E3 : gives (step { State.reset with pc := 0xFFF })
    (fun t => decide (t = { State.reset with pc := 0xFFF, fault := some ⟨.fetchOutOfRange, 0xFFF, none, some 0x1000⟩ })) = true := by
  decide
theorem test_E4 : gives (step { State.reset with pc := 0x1000 })
    (fun t => decide (t.fault = some ⟨.fetchOutOfRange, 0x1000, none, some 0x1000⟩)) = true := by decide
theorem test_E5 : gives (run State.reset 0x8008) (fun t => decide (t = (State.reset.withFetchWord 16 0x8008).advance)) = true := by
  decide
theorem test_E6 : faults { State.reset with cfg := { defaultConfig with unknownPolicy := .fault } } 0x8008 .unknownOpcode none = true := by
  decide
theorem test_E10 : step { State.reset with fault := some ⟨.indexOverflow, 0x200, none, none⟩ } =
    .fault (.halted ⟨.indexOverflow, 0x200, none, none⟩) := by rfl

/-! ## Control flow -/

theorem test_F1 : gives (run State.reset 0x1208) (fun t => t.pc == 0x208) = true := by decide
theorem test_F3 : gives (run { State.reset with pc := 0x204 } 0x2210)
    (fun t => t.stackEntry 0 == 0x206 && t.sp == 1 && t.pc == 0x210) = true := by decide
theorem test_F4 : faults { State.reset with sp := 16 } 0x2210 .stackOverflow none = true := by decide
theorem test_F5 : gives (run ({ State.reset with pc := 0x212 }.push 0x206) 0x00EE) (fun t => t.pc == 0x206 && t.sp == 0) = true := by
  decide
theorem test_F6 : faults State.reset 0x00EE .stackUnderflow none = true := by decide
theorem test_F7 : gives (run (regs [(3, 0x10)]) 0x3310) (fun t => t.pc == 0x204) = true := by decide
theorem test_F8 : gives (run (regs [(3, 0x11)]) 0x3310) (fun t => t.pc == 0x202) = true := by decide
theorem test_F9 : gives (run (regs [(3, 0x11)]) 0x4310) (fun t => t.pc == 0x204) = true := by decide
theorem test_F10 : gives (run (regs [(3, 0x10)]) 0x4310) (fun t => t.pc == 0x202) = true := by decide
theorem test_F11 : gives (run (regs [(1, 7), (2, 7)]) 0x5120) (fun t => t.pc == 0x204) = true := by decide
theorem test_F12 : gives (run (regs [(1, 7), (2, 8)]) 0x5120) (fun t => t.pc == 0x202) = true := by decide
theorem test_F14 : gives (run (regs [(1, 7), (2, 8)]) 0x9120) (fun t => t.pc == 0x204) = true := by decide
theorem test_F15 : gives (run (regs [(1, 7)]) 0x9110) (fun t => t.pc == 0x202) = true := by decide
theorem test_F17 : gives (run (regs [(0, 0xFF)]) 0xBFFF) (fun t => t.pc == 0x10FE && !t.fetchOk) = true := by decide
theorem test_F20 : gives (run (extended (regs [(0, 4), (3, 9)])) 0xB300) (fun t => t.pc == 0x304) = true := by decide

/-! ## Arithmetic and logic -/

theorem test_A1 : gives (run State.reset 0x6A05) (fun t => t.reg 10 == 5) = true := by decide
theorem test_A2 : gives (run (regs [(0, 0xFE), (15, 7)]) 0x7003) (fun t => t.reg 0 == 1 && t.reg 15 == 7) = true := by decide
theorem test_A3 : gives (run (regs [(15, 0xFF)]) 0x7F01) (fun t => t.reg 15 == 0) = true := by decide
theorem test_A4 : gives (run (regs [(1, 0x42)]) 0x8010) (fun t => t.reg 0 == 0x42) = true := by decide
theorem test_A5_original : gives (run (regs [(0, 0x0C), (1, 3), (15, 5)]) 0x8011) (fun t => t.reg 0 == 0x0F && t.reg 15 == 0) = true := by
  decide
theorem test_A5_extended :
    gives (run (extended (regs [(0, 0x0C), (1, 3), (15, 5)])) 0x8011) (fun t => t.reg 0 == 0x0F && t.reg 15 == 5) = true := by decide
theorem test_A6 : gives (run (regs [(0, 0x0C), (1, 0x0A), (15, 7)]) 0x8012) (fun t => t.reg 0 == 8 && t.reg 15 == 0) = true := by decide
theorem test_A7 : gives (run (regs [(0, 0x0C), (1, 0x0A), (15, 7)]) 0x8013) (fun t => t.reg 0 == 6 && t.reg 15 == 0) = true := by decide
theorem test_A12 : gives (run (regs [(0, 0x80), (1, 0x80)]) 0x8014) (fun t => t.reg 0 == 0 && t.reg 15 == 1) = true := by decide
theorem test_A13 : gives (run (regs [(15, 0xFF), (1, 1)]) 0x8F14) (fun t => t.reg 15 == 1) = true := by decide
theorem test_A15 : gives (run (regs [(0, 1), (1, 2)]) 0x8015) (fun t => t.reg 0 == 0xFF && t.reg 15 == 0) = true := by decide
theorem test_A16 : gives (run (regs [(0, 5), (1, 5)]) 0x8015) (fun t => t.reg 0 == 0 && t.reg 15 == 1) = true := by decide
theorem test_A19 : gives (run (regs [(0, 5), (1, 3)]) 0x8017) (fun t => t.reg 0 == 0xFE && t.reg 15 == 0) = true := by decide
theorem test_A20 : gives (run (regs [(0, 3), (1, 5)]) 0x8017) (fun t => t.reg 0 == 2 && t.reg 15 == 1) = true := by decide
theorem test_A22_original : gives (run (regs [(0, 5), (1, 0x80)]) 0x8016) (fun t => t.reg 0 == 0x40 && t.reg 15 == 0) = true := by decide
theorem test_A22_extended : gives (run (extended (regs [(0, 5), (1, 0x80)])) 0x8016) (fun t => t.reg 0 == 2 && t.reg 15 == 1) = true := by
  decide
theorem test_A25_original : gives (run (regs [(0, 1), (1, 0x81)]) 0x801E) (fun t => t.reg 0 == 2 && t.reg 15 == 1) = true := by decide
theorem test_A25_extended : gives (run (extended (regs [(0, 1), (1, 0x81)])) 0x801E) (fun t => t.reg 0 == 2 && t.reg 15 == 0) = true := by
  decide
theorem test_A28 : (rndWith 0x5A 3 0x0F State.reset).reg 3 = 0x0A := by decide
theorem test_A30 : (rndWith 0xA7 3 0xFF State.reset).reg 3 = 0xA7 := by decide

/-! ## Index register and memory -/

theorem test_M1 : gives (run State.reset 0xA200) (fun t => t.index == 0x200) = true := by decide
theorem test_M3 : faults { (regs [(2, 1)]) with index := 0xFFFF } 0xF21E .indexOverflow none = true := by decide
theorem test_M4 : gives (run { (regs [(2, 0xFF)]) with index := 0xFF00 } 0xF21E) (fun t => t.index == 0xFFFF) = true := by decide
theorem test_M5 : gives (run (regs [(4, 0x0A)]) 0xF429) (fun t => t.index == 0x032) = true := by decide
theorem test_M6 : gives (run (regs [(4, 0xFF)]) 0xF429) (fun t => t.index == 0x4FB) = true := by decide
theorem test_M7 : gives (run { (regs [(0, 0x9C)]) with index := 0x300 } 0xF033)
    (fun t => t.readMem 0x300 == 1 && t.readMem 0x301 == 5 && t.readMem 0x302 == 6 && t.index == 0x300) = true := by decide
theorem test_M10 : faults { State.reset with index := 0xFFE } 0xF033 .memoryOutOfRange (some 0x1000) = true := by decide
theorem test_M12 : gives (run { (regs [(15, 9)]) with index := 0xFF0 } 0xFF55) (fun t => t.readMem 0xFFF == 9 && t.index == 0x1000) = true := by
  decide
theorem test_M13 : faults { State.reset with index := 0xFF1 } 0xFF55 .memoryOutOfRange (some 0x1000) = true := by decide
theorem test_M14 :
    gives (run ({ State.reset with index := 0x300 }.writeBytes 0x300 [1, 5, 6]) 0xF265)
      (fun t => t.reg 0 == 1 && t.reg 1 == 5 && t.reg 2 == 6 && t.index == 0x303) = true := by decide
theorem test_M15 : faults { State.reset with index := 0x1000 } 0xF065 .memoryOutOfRange (some 0x1000) = true := by decide

/-! ## Display -/

/-- Pixels of glyph 0 at the origin, from D2. -/
def glyph0Lit (d : Display) : Bool :=
  (List.range 5).all fun y => (List.range 9).all fun x =>
    Display.pixel d y x == decide (x < 4 ∧ (y = 0 ∨ y = 4 ∨ x = 0 ∨ x = 3))

theorem test_D1 : gives (run { State.reset with disp := Display.setPixel Display.blank 3 4 true } 0x00E0)
    (fun t => decide (t.disp = Display.blank) && t.redraw) = true := by decide
theorem test_D2 : gives (run State.reset 0xD005) (fun t => glyph0Lit t.disp && t.reg 15 == 0 && t.redraw && t.pc == 0x202) = true := by
  decide
theorem test_D4 : gives (run { (regs [(1, 62), (2, 30)]) with index := 0x032 } 0xD125)
    (fun t => Display.pixel t.disp 30 62 && Display.pixel t.disp 30 63 && Display.pixel t.disp 31 62 &&
      !Display.pixel t.disp 31 63 && !Display.pixel t.disp 30 0 && !Display.pixel t.disp 0 62 && t.reg 15 == 0) = true := by decide

/-! ## Keypad, timers and load -/

theorem test_K1 : gives (run (keyed (regs [(5, 10)]) 10) 0xE59E) (fun t => t.pc == 0x204) = true := by decide
theorem test_K2 : gives (run (regs [(5, 10)]) 0xE59E) (fun t => t.pc == 0x202) = true := by decide
theorem test_K3 : gives (run (regs [(5, 10)]) 0xE5A1) (fun t => t.pc == 0x204) = true := by decide
theorem test_K4 : faults (regs [(5, 0x10)]) 0xE5A1 .keyIndexOutOfRange (some 0x10) = true := by decide
theorem test_K5 : gives (run { State.reset with dt := 0x3C } 0xF307) (fun t => t.reg 3 == 0x3C) = true := by decide
theorem test_K6 : gives (run (regs [(3, 0x3C)]) 0xF315) (fun t => t.dt == 0x3C && t.st == 0) = true := by decide
theorem test_K7 : gives (run (regs [(3, 2)]) 0xF318) (fun t => t.st == 2 && t.dt == 0) = true := by decide
theorem test_K8 : gives (run State.reset 0xF30A) (fun t => decide (t.sub = .awaitKeyPress 3) && t.pc == 0x202) = true := by decide
theorem test_K9 : gives (step (keyed { State.reset with sub := .awaitKeyPress 3 } 7))
    (fun t => decide (t.sub = .awaitKeyRelease 3 7) && t.reg 3 == 0) = true := by decide
theorem test_K11 : gives (step { State.reset with sub := .awaitKeyRelease 3 7 })
    (fun t => decide (t.sub = .running) && t.reg 3 == 7 && t.pc == 0x200) = true := by decide
theorem test_K12 : gives (run (keyed (keyed State.reset 9) 4) 0xF00A) (fun t => decide (t.sub = .awaitKeyRelease 0 4)) = true := by decide
theorem test_K14 : ({ State.reset with st := 1 }.timerUpdate.st = 0) ∧ { State.reset with st := 1 }.timerUpdate.tone = true := by decide
theorem test_K15 : { State.reset with tone := true }.timerUpdate.tone = false := by decide
theorem test_L2 : load defaultConfig 0 (some (List.replicate 3585 0)) = .error .romTooLarge := by
  simp only [load, test_rom_too_large]; rfl
theorem test_load_of_nothing_is_reset : load defaultConfig 0 (some []) = .ok State.reset := by rfl
theorem test_L4 : (({ State.reset with fault := some ⟨.stackOverflow, 0x200, none, none⟩, sp := 3 }).reload .original (some [0, 7])).fault = none := by
  decide

/-! ## Witnesses: for each statement with hypotheses, data that meet them, at a boundary of each clause -/

/-- The state with opcode 0x6A05 at 0xFFE, the last address a fetch may start at. -/
def edge : State := { State.reset with pc := 0xFFE }.storeOpcode 0x6A05

theorem test_witness_StepRunsTheDecodedInstruction : edge.fault = none ∧ edge.sub = .running ∧ edge.pc.toNat + 1 ≤ 4095 ∧
    decodeBytes [edge.readMem edge.pc.toNat, edge.readMem (edge.pc.toNat + 1)] = .ok (.ldImm 10 5, []) := by decide

theorem test_witness_EncodeOfDecodeIsIdentity : decode 0xDFE5 = .ok (.drw 15 14 5) := by decide

theorem test_witness_OpcodeMapRowsNeverOverlap : (opcodeMap[9]'(by decide)).applies 0x8010 = true ∧
    (opcodeMap[0]'(by decide)).applies 0x00E0 = true := by decide

theorem test_witness_UnmatchedOpcodesAreExactlyTheListed : unmatchedProse 0x0FFF ∧ unmatchedProse 0x9001 ∧ unmatchedProse 0x800F ∧
    unmatchedProse 0xE09D ∧ unmatchedProse 0xF000 ∧ ¬ unmatchedProse 0x00E0 :=
  ⟨by decide, by decide, by decide, by decide, by decide, by decide⟩

theorem test_witness_StoredOpcodeIsFetchedAndRun : Memory.wf State.reset.cfg.font State.reset.mem = true ∧ State.reset.pc.toNat + 1 ≤ 4095 ∧
    decodeTableWord 16 0xF155 = some (.ldMemVx 1) := by decide

theorem test_witness_FetchPastMemoryFaults : { State.reset with pc := 0xFFF }.fault = none ∧ { State.reset with pc := 0xFFF }.sub = .running ∧
    4095 < { State.reset with pc := 0xFFF }.pc.toNat + 1 ∧ 4095 < { State.reset with pc := 0x10FE }.pc.toNat + 1 := by decide

theorem test_witness_UnmatchedOpcodeFollowsThePolicy : State.reset.fault = none ∧ State.reset.sub = .running ∧ State.reset.pc.toNat + 1 ≤ 4095 ∧
    State.reset.fetchOp = 0 ∧ unmatchedProse 0 ∧ State.reset.cfg.unknownPolicy = .nop ∧
    { State.reset with cfg := { defaultConfig with unknownPolicy := .fault } }.fetchOp = 0 := by decide

/-- Waiting for a key into V3. -/
def waiting : State := { State.reset with sub := .awaitKeyPress 3 }

/-- Waiting for the release of key 15. -/
def releasing : State := { State.reset with sub := .awaitKeyRelease 3 15 }

theorem test_witness_KeyWaitSteps : waiting.fault = none ∧ (∀ k, waiting.keyDown k = false) ∧
    (keyed (keyed waiting 15) 0).keyDown 0 = true ∧ (∀ j, j < (0 : Key) → (keyed waiting 0).keyDown j = false) ∧
    (keyed waiting 15).keyDown 15 = true ∧ (∀ j, j < (15 : Key) → (keyed waiting 15).keyDown j = false) ∧
    (keyed releasing 15).keyDown 15 = true ∧ releasing.keyDown 15 = false := by decide

/-- A halted state. -/
def halted : State := { State.reset with fault := some ⟨.stackUnderflow, 0x200, some 0x00EE, none⟩ }

theorem test_witness_HaltedMachineStaysHalted : halted.fault = some ⟨.stackUnderflow, 0x200, some 0x00EE, none⟩ := by decide

theorem test_witness_StepAlwaysAnswersUnlessHalted : State.reset.fault = none ∧
    step halted = .fault (.halted ⟨.stackUnderflow, 0x200, some 0x00EE, none⟩) := ⟨rfl, rfl⟩

/-- A return with an empty stack, at 0x200. -/
def underflowing : State := State.reset.storeOpcode 0x00EE

theorem test_witness_FaultsArePrecise : ∃ t, step underflowing = .next t ∧ underflowing.fault = none ∧ t.fault ≠ none :=
  ⟨_, rfl, by decide, by decide⟩

theorem test_witness_InstructionsRaiseOnlyTheirOwnFault :
    ∃ t r, exec .ret State.reset = .next t ∧ State.reset.fault = none ∧ t.fault = some r := ⟨_, _, rfl, rfl, rfl⟩

theorem test_witness_DataAccessPastMemoryFaults : 4095 < { State.reset with index := 0xFFE }.index.toNat + 2 ∧
    4095 < { State.reset with index := 0x1000 }.index.toNat + (0 : Reg).val ∧
    4095 < { State.reset with index := 0xFF1 }.index.toNat + (15 : Reg).val ∧ 0 < (1 : Fin 16).val ∧
    4095 < { State.reset with index := 0x1000 }.index.toNat + min (1 : Fin 16).val (32 - (State.reset.reg 0).toNat % 32) - 1 := by decide

theorem test_witness_JumpsGoToTheirTarget : (0xFFF : BitVec 12).toNat = 0xFFF ∧ (0x200 : BitVec 12).toNat = State.reset.pc.toNat ∧
    4094 < (0xFFF : BitVec 12).toNat + (State.reset.reg 0).toNat := by decide

theorem test_witness_SkipIfEqualImmediate : State.reset.reg 3 = 0 ∧ ¬ State.reset.reg 3 = 0x10 := by decide

theorem test_witness_SkipsComparingRegisters : (0x5121 : Opcode).toNat / 0x1000 = 5 ∧ (0x9121 : Opcode).toNat / 0x1000 = 9 ∧
    (0x512F : Opcode).toNat % 0x10 ≠ 0 := by decide

theorem test_witness_ReturnPopsOrUnderflows : State.reset.sp = 0 ∧ 0 < (State.reset.push 0x206).sp := by decide

theorem test_witness_CallPushesOrOverflows : State.reset.cfg.WellFormed = true ∧
    { State.reset with sp := 16 }.sp = State.reset.cfg.stackCapacity ∧ { State.reset with sp := 15 }.sp < State.reset.cfg.stackCapacity ∧
    Config.WellFormed { defaultConfig with stackCapacity := 12 } = true := by decide

theorem test_witness_ReturnComesBackAfterCall : State.reset.cfg.WellFormed = true ∧ State.reset.sp < State.reset.cfg.stackCapacity ∧
    ∃ t, exec (.call 0x300) State.reset = .next t ∧ ∃ u : State, u.sp = t.sp ∧ u.stk = t.stk :=
  ⟨by decide, by decide, _, rfl, _, rfl, rfl⟩

theorem test_witness_LogicClearsFlagUnderOriginal : State.reset.cfg.variant = .original ∧ (extended State.reset).cfg.variant = .extended ∧
    (14 : Reg) ≠ vF := by decide

theorem test_witness_AddSetsCarry : ((regs [(0, 0xFF), (1, 1)]).reg 0).toNat + ((regs [(0, 0xFF), (1, 1)]).reg 1).toNat > 255 ∧
    ¬ ((regs [(0, 0xFE), (1, 1)]).reg 0).toNat + ((regs [(0, 0xFE), (1, 1)]).reg 1).toNat > 255 := by decide

theorem test_witness_SubtractSetsNotBorrow : ((regs [(0, 5), (1, 5)]).reg 0).toNat ≥ ((regs [(0, 5), (1, 5)]).reg 1).toNat ∧
    ¬ ((regs [(0, 4), (1, 5)]).reg 0).toNat ≥ ((regs [(0, 4), (1, 5)]).reg 1).toNat := by decide

theorem test_witness_ShiftsMoveOneBitOut : State.reset.cfg.variant = .original ∧ (0 : Byte) = State.reset.reg 1 ∧
    (extended State.reset).cfg.variant = .extended ∧ (0 : Byte) = (extended State.reset).reg 0 ∧ (0x80 : Byte).toNat ≥ 128 ∧
    (0x7F : Byte).toNat % 2 = 1 := by decide

theorem test_witness_AddToIndexOrOverflows :
    { (regs [(2, 0xFF)]) with index := 0xFF00 }.index.toNat + ({ (regs [(2, 0xFF)]) with index := 0xFF00 }.reg 2).toNat ≤ 0xFFFF ∧
    0xFFFF < { (regs [(2, 0xFF)]) with index := 0xFF01 }.index.toNat + ({ (regs [(2, 0xFF)]) with index := 0xFF01 }.reg 2).toNat := by decide

theorem test_witness_StoreBcdDigits : Memory.wf State.reset.cfg.font { State.reset with index := 0xFFD }.mem = true ∧
    { State.reset with index := 0xFFD }.index.toNat + 2 ≤ 4095 := by decide

theorem test_witness_StoreRegistersUpToX : Memory.wf State.reset.cfg.font { State.reset with index := 0xFF0 }.mem = true ∧
    { State.reset with index := 0xFF0 }.index.toNat + (15 : Reg).val ≤ 4095 ∧ State.reset.cfg.variant = .original ∧
    (extended State.reset).cfg.variant = .extended := by decide

theorem test_witness_LoadRegistersUpToX : { State.reset with index := 0xFF0 }.index.toNat + (15 : Reg).val ≤ 4095 := by decide

theorem test_witness_LoadAfterStoreRestoresRegisters : Memory.wf State.reset.cfg.font State.reset.mem = true ∧
    State.reset.index.toNat + (1 : Reg).val ≤ 4095 ∧
    ∃ t, exec (.ldMemVx 1) State.reset = .next t ∧
      ∃ u : State, u.mem = t.mem ∧ u.cfg = t.cfg ∧ u.index = State.reset.index :=
  ⟨by decide, by decide, _, rfl, ⟨{ State.reset with mem := _ }, rfl, rfl, rfl⟩⟩

theorem test_witness_CanonicalMemoryIsUnique : Memory.wf defaultFont [(0x300, 7)] = true ∧
    ∀ a, Memory.read defaultFont [(0x300, 7)] a = Memory.read defaultFont [(0x300, 7)] a := ⟨by decide, fun _ => rfl⟩

/-- FX55 of V0 at I = 0, with V0 = 0x42 (M16). -/
def storing : State := (regs [(0, 0x42)]).storeOpcode 0xF055

theorem test_witness_OnlyTheTwoStoresWriteMemory : Memory.wf storing.cfg.font storing.mem = true ∧
    ∃ t, step storing = .next t ∧ t.readMem 0 ≠ storing.readMem 0 := ⟨by decide, _, rfl, by decide⟩

theorem test_witness_DrawIsXorWithCollision : min (0 : Fin 16).val (32 - (State.reset.reg 0).toNat % 32) = 0 ∧
    { (regs [(2, 30)]) with index := 0xFFE }.index.toNat +
      min (5 : Fin 16).val (32 - ({ (regs [(2, 30)]) with index := 0xFFE }.reg 2).toNat % 32) - 1 ≤ 4095 ∧
    State.reset.spriteBit 0 0 5 0 0 = true ∧ State.reset.spriteBit 0 0 5 1 1 = false ∧
    Display.pixel (Display.setPixel Display.blank 0 0 true) 0 0 = true ∧ Display.pixel State.reset.disp 0 0 = false := by decide

theorem test_witness_DrawTwiceRestoresTheDisplay : (0 : Reg) ≠ vF ∧ State.reset.fault = none ∧
    ∃ t u, exec (.drw 0 0 5) State.reset = .next t ∧ t.fault = none ∧ exec (.drw 0 0 5) t = .next u ∧
      Display.pixel State.reset.disp 0 0 = false ∧ State.reset.spriteBit 0 0 5 0 0 = true :=
  ⟨by decide, rfl, _, _, rfl, rfl, rfl, by decide, by decide⟩

theorem test_witness_DisplayChangesOnlyByClearAndDraw :
    ∃ t, step (State.reset.storeOpcode 0xD005) = .next t ∧ t.redraw ≠ (State.reset.storeOpcode 0xD005).redraw ∧
      ∃ u, step { State.reset with redraw := true } = .next u := ⟨_, rfl, by decide, _, rfl⟩

theorem test_witness_OutputsAreNeverReadBack : ∀ x y n, Instr.cls ≠ .drw x y n := by simp

theorem test_witness_KeySkipsOrIndexFault : ((regs [(5, 15)]).reg 5).toNat = (15 : Key).val ∧ 15 < ((regs [(5, 16)]).reg 5).toNat := by decide

theorem test_witness_WaitForKeyEntersTheSubState : (∀ k, State.reset.keyDown k = false) ∧ (keyed (keyed State.reset 15) 0).keyDown 0 = true ∧
    (keyed State.reset 15).keyDown 15 = true ∧ (∀ j, j < (15 : Key) → (keyed State.reset 15).keyDown j = false) := by decide

theorem test_witness_TimerUpdateCountsDownAndClamps : halted.fault ≠ none ∧ State.reset.fault = none := by decide

/-- The self-jump at 0x200 with DT = 3 and ten steps a frame tick (K16, F2). -/
def looping : State := { State.reset with dt := 3, cfg := { defaultConfig with ipf := 10 } }.storeOpcode 0x1200

theorem test_witness_FrameTickLowersDelayTimerOnce :
    looping.cfg.WellFormed = true ∧
    (∀ k, k < looping.cfg.ipf → (runQuota k looping).sub = .running → decode (runQuota k looping).fetchOp = .ok (.jp 0x200)) ∧
    (runQuota looping.cfg.ipf looping).fault = none ∧ (looping.frameTick ⟨true, [(7, true)]⟩).1.dt = 2 := by decide

theorem test_witness_RegistersChangeOnlyByTheirWriters :
    (∃ t, exec (.ldImm 10 5) State.reset = .next t ∧ t.reg 10 ≠ State.reset.reg 10) ∧
    (∃ t, step (State.reset.storeOpcode 0x6A05) = .next t ∧ t.reg 10 ≠ (State.reset.storeOpcode 0x6A05).reg 10) ∧
    ∃ t, step releasing = .next t ∧ t.reg 3 ≠ releasing.reg 3 :=
  ⟨⟨_, rfl, by decide⟩, ⟨_, rfl, by decide⟩, ⟨_, rfl, by decide⟩⟩

theorem test_witness_StepLeavesHostStateAlone :
    (∃ t, step ((regs [(3, 9)]).storeOpcode 0xF315) = .next t ∧ t.dt ≠ ((regs [(3, 9)]).storeOpcode 0xF315).dt) ∧
    ∃ t, step ((regs [(3, 9)]).storeOpcode 0xF318) = .next t ∧ t.st ≠ ((regs [(3, 9)]).storeOpcode 0xF318).st :=
  ⟨⟨_, rfl, by decide⟩, ⟨_, rfl, by decide⟩⟩

theorem test_witness_ConfigurationIsFixedBetweenLoads : ∀ v src, HostAction.timerUpdate ≠ .load v src := by simp

theorem test_witness_VariantChangesOnlyTheQuirks : (Instr.jpV0 0x300).hasQuirk = false := by decide

theorem test_witness_ExtendedShiftsIgnoreY : (extended State.reset).cfg.variant = .extended := by decide

theorem test_witness_invariant : State.reset.Inv :=
  ⟨by decide, by decide, by decide, by decide, by decide, fun r h => by cases h⟩

theorem test_witness_StepKeepsTheInvariant : State.reset.Inv ∧ ∃ t, step State.reset = .next t := ⟨test_witness_invariant, _, rfl⟩

theorem test_witness_LoadBuildsTheResetState : ([0, 7] : List Byte).length ≤ 3584 ∧ 3584 < (List.replicate 3585 (0 : Byte)).length :=
  ⟨by decide, by rw [List.length_replicate]; decide⟩

end Sys2Proof.Tests
end

namespace Sys2Proof

/-! ## The value of a word built from its fields (R74) -/

/-- Concatenation as arithmetic: the low part lies below the high part's unit. -/
theorem toNat_append_eq_mul_add {w v : Nat} (a : BitVec w) (b : BitVec v) :
    (a ++ b).toNat = a.toNat * 2 ^ v + b.toNat := by
  rw [BitVec.toNat_append, ← Nat.shiftLeft_add_eq_or_of_lt b.isLt, Nat.shiftLeft_eq]

theorem toNat_wordNNN (t : BitVec 4) (nnn : BitVec 12) :
    (wordNNN t nnn).toNat = 0x1000 * t.toNat + nnn.toNat := by
  have h := toNat_append_eq_mul_add t nnn
  simp only [wordNNN]
  omega

theorem toNat_wordXNN (t : BitVec 4) (x : Reg) (nn : Byte) :
    (wordXNN t x nn).toNat = 0x1000 * t.toNat + 0x100 * x.val + nn.toNat := by
  have hx : (BitVec.ofFin x : BitVec 4).toNat = x.val := rfl
  simp only [wordXNN, toNat_append_eq_mul_add, hx]
  omega

theorem toNat_wordXYN (t : BitVec 4) (x y : Reg) (n : BitVec 4) :
    (wordXYN t x y n).toNat = 0x1000 * t.toNat + 0x100 * x.val + 0x10 * y.val + n.toNat := by
  have hx : (BitVec.ofFin x : BitVec 4).toNat = x.val := rfl
  have hy : (BitVec.ofFin y : BitVec 4).toNat = y.val := rfl
  simp only [wordXYN, toNat_append_eq_mul_add, hx, hy]
  omega

/-! ## The value of a field (R72) -/

theorem toNat_opT (op : Opcode) : (opT op).toNat = op.toNat / 0x1000 := by
  have hlt := op.isLt
  rw [opT, BitVec.extractLsb'_toNat, Nat.shiftRight_eq_div_pow]
  omega

theorem val_opN (op : Opcode) : (opN op).val = op.toNat % 0x10 := rfl

/-! ## Unmatched opcodes (R84) -/

/-- The decoder answers "unmatched" exactly if no row of the opcode map applies. -/
theorem decode_eq_unmatched_iff (op : Opcode) :
    decode op = .error (.unmatched op) ↔ ∀ r ∈ opcodeMap, r.applies op = false := by
  unfold decode
  cases h : opcodeMap.find? (fun r => r.applies op) with
  | none => simpa using h
  | some r =>
    have happ : r.applies op = true := List.find?_some (p := fun r : OpRow => r.applies op) h
    simpa using ⟨r, List.mem_of_find?_eq_some h, happ⟩

/-- A field that a row's mask covers reads, in every opcode the row applies to, as in the row's pattern. -/
theorem OpRow.extractLsb'_eq_pattern {r : OpRow} {op : Opcode} (start len : Nat) (h : r.applies op = true)
    (hmask : r.mask.extractLsb' start len = BitVec.allOnes len) :
    op.extractLsb' start len = r.pattern.extractLsb' start len := by
  have hand : op &&& r.mask = r.pattern := beq_iff_eq.1 h
  rw [← hand, BitVec.extractLsb'_and, hmask, BitVec.and_allOnes]

/-- Every row of the opcode map fixes the primary opcode T (R80). -/
theorem opcodeMap_mask_covers_T : ∀ r ∈ opcodeMap, opT r.mask = BitVec.allOnes 4 := by decide

/-- The rows with primary opcode 5 or 9 are 5XY0 and 9XY0, which fix N = 0 (R80). -/
theorem opcodeMap_registerSkip_rows_fix_N : ∀ r ∈ opcodeMap,
    opT r.pattern = 5 ∨ opT r.pattern = 9 → r.mask.extractLsb' 0 4 = BitVec.allOnes 4 ∧ opN r.pattern = 0 := by decide

/-- 5XYn and 9XYn with n other than 0 match no row (R84). -/
theorem decode_registerSkip_of_opN_ne_zero {op : Opcode} (hT : opT op = 5 ∨ opT op = 9) (hN : opN op ≠ 0) :
    decode op = .error (.unmatched op) := by
  rw [decode_eq_unmatched_iff]
  intro r hr
  by_contra happ
  rw [Bool.not_eq_false] at happ
  have hTpat : opT op = opT r.pattern := OpRow.extractLsb'_eq_pattern 12 4 happ (opcodeMap_mask_covers_T r hr)
  rw [hTpat] at hT
  obtain ⟨hmask, hzero⟩ := opcodeMap_registerSkip_rows_fix_N r hr hT
  have hNpat : opN op = opN r.pattern := congrArg BitVec.toFin (OpRow.extractLsb'_eq_pattern 0 4 happ hmask)
  exact hN (hNpat.trans hzero)

end Sys2Proof

namespace Sys2Proof.Machine

/-! ## Jumps and skips change PC only -/

/-- Writing PC leaves every other part of the state. -/
theorem frameExcept_setPc (s : State) (a : Addr) : FrameExcept s (s.setPc a) [.pc] := by
  intro p hp
  cases p with
  | pc => simp at hp
  | _ => rfl

/-- The fetch fails exactly when the second byte of the opcode lies past the memory (R91). -/
theorem State.fetchOk_eq_false_iff (s : State) : s.fetchOk = false ↔ 4094 < s.pc.toNat := by
  simp only [State.fetchOk, decide_eq_false_iff_not]
  omega

/-- Setting PC to what it holds is no change. -/
theorem State.setPc_self (s : State) : s.setPc s.pc = s := rfl

@[simp] theorem toNat_addrOf (nnn : BitVec 12) : (addrOf nnn).toNat = nnn.toNat := by
  have h := nnn.isLt
  simp only [addrOf, BitVec.toNat_setWidth]
  omega

/-- The target of BNNN: a 16-bit sum that never wraps (R126). -/
theorem toNat_addrOf_add_wordOf (nnn : BitVec 12) (b : Byte) :
    (addrOf nnn + wordOf b).toNat = nnn.toNat + b.toNat := by
  have hn := nnn.isLt
  have hb := b.isLt
  simp only [BitVec.toNat_add, toNat_addrOf, wordOf, BitVec.toNat_setWidth]
  omega

/-- Advance and skip together: PC is 4 or 2 further (R92, R114). -/
theorem State.advance_skipIf (s : State) (c : Bool) :
    s.advance.skipIf c = s.setPc (if c then s.pc + 4 else s.pc + 2) := by
  cases c with
  | false => rfl
  | true =>
    have hpc : s.pc + 2 + 2 = s.pc + 4 := by bv_omega
    exact congrArg s.setPc hpc

/-- An instruction whose meaning is "advance, then skip if `c`" is a skip on `c`. -/
theorem skipEffect_of_exec {i : Instr} {s : State} {c : Prop} [Decidable c]
    (h : exec i s = .next (s.advance.skipIf (decide c))) : SkipEffect i s c := by
  rw [State.advance_skipIf] at h
  exact ⟨_, h, fun hc => by simp [hc], fun hc => by simp [hc], frameExcept_setPc s _⟩

/-! ## The obligations -/

/-- Settles O16: each jump is one write of PC, whose target is a sum of naturals. -/
theorem jumpsGoToTheirTarget : Obligations.JumpsGoToTheirTarget := by
  unfold Obligations.JumpsGoToTheirTarget
  intro nnn s
  have hn := nnn.isLt
  have hv := (s.reg 0).isLt
  have hpc : (s.setPc (addrOf nnn)).pc.toNat = nnn.toNat := toNat_addrOf nnn
  have hpc0 : (s.setPc (addrOf nnn + wordOf (s.reg v0))).pc.toNat = nnn.toNat + (s.reg 0).toNat :=
    toNat_addrOf_add_wordOf nnn (s.reg 0)
  refine ⟨toNat_wordNNN 1 nnn, ⟨_, rfl, hpc, frameExcept_setPc s _, fun hlast => ?_, fun hself => ?_⟩,
    toNat_wordNNN 0xB nnn, ⟨_, rfl, hpc0, by omega, frameExcept_setPc s _, fun hpast => ?_⟩⟩
  · rw [State.fetchOk_eq_false_iff]
    omega
  · rw [BitVec.eq_of_toNat_eq ((toNat_addrOf nnn).trans hself), State.setPc_self]
  · rw [State.fetchOk_eq_false_iff]
    omega

/-- Settles O19: the two skips, and no row of the map for a low nibble other than 0. -/
theorem skipsComparingRegisters : Obligations.SkipsComparingRegisters := by
  unfold Obligations.SkipsComparingRegisters
  constructor
  · intro x y s
    exact ⟨toNat_wordXYN 5 x y 0, skipEffect_of_exec rfl, toNat_wordXYN 9 x y 0, skipEffect_of_exec rfl⟩
  · intro op hT hN
    rw [← toNat_opT] at hT
    rw [← val_opN] at hN
    have hfields : opT op = 5 ∨ opT op = 9 := hT.imp BitVec.eq_of_toNat_eq BitVec.eq_of_toNat_eq
    exact decode_registerSkip_of_opN_ne_zero hfields fun hzero => hN (congrArg Fin.val hzero)

/-- Settles O17: 3XNN is a skip on V[X] = NN. -/
theorem skipIfEqualImmediate : Obligations.SkipIfEqualImmediate := by
  unfold Obligations.SkipIfEqualImmediate
  exact fun x nn s => ⟨toNat_wordXNN 3 x nn, skipEffect_of_exec rfl⟩

end Sys2Proof.Machine

namespace Sys2Proof.Machine

/-! ## Loads, copies and the immediate add write one register (R145, R146, R150) -/

/-- Advancing PC and writing V[X] leaves every other part of the state. -/
theorem frameExcept_advance_setReg (s : State) (x : Reg) (b : Byte) :
    FrameExcept s (s.advance.setReg x b) [.pc, .reg x] := by
  intro p hp
  cases p with
  | pc => simp at hp
  | reg r =>
    have hne : r ≠ x := by simpa using hp
    calc (s.advance.setReg x b).reg r
      _ = s.advance.reg r := by rw [State.reg_setReg, if_neg hne]
      _ = s.reg r := State.reg_congr (State.advance_v s) r
  | _ => rfl

/-- An instruction whose meaning is "advance, then write `b` to V[X]" writes V[X] only. -/
theorem writesOnly_of_exec {i : Instr} {s : State} {x : Reg} {b : Byte}
    (h : exec i s = .next (s.advance.setReg x b)) : WritesOnly i s x b :=
  ⟨_, h, State.reg_setReg_self s.advance x b, State.advance_pc s, frameExcept_advance_setReg s x b⟩

/-- Settles O23: both are an advance and one register write. -/
theorem loadsAndCopiesWriteOneRegister : Obligations.LoadsAndCopiesWriteOneRegister := by
  unfold Obligations.LoadsAndCopiesWriteOneRegister
  exact fun x y nn s => ⟨toNat_wordXNN 6 x nn, writesOnly_of_exec rfl, toNat_wordXYN 8 x y 0, writesOnly_of_exec rfl⟩

/-- Settles O24: one register write of the byte sum, which is the sum of naturals modulo 256. -/
theorem addImmediateWrapsWithoutFlag : Obligations.AddImmediateWrapsWithoutFlag := by
  unfold Obligations.AddImmediateWrapsWithoutFlag
  intro x nn s
  have hsum : BitVec.ofNat 8 (((s.reg x).toNat + nn.toNat) % 256) = s.reg x + nn := by
    rw [← BitVec.toNat_add, BitVec.ofNat_toNat, BitVec.setWidth_eq]
  rw [hsum]
  exact ⟨toNat_wordXNN 7 x nn, writesOnly_of_exec rfl⟩

end Sys2Proof.Machine

namespace Sys2Proof.Machine

/-! ## Index loads write I only (R180, R186) -/

/-- Advancing PC and writing I leaves every other part of the state. -/
theorem frameExcept_advance_setIndex (s : State) (a : Addr) :
    FrameExcept s (s.advance.setIndex a) [.pc, .index] := by
  intro p hp
  cases p with
  | pc => simp at hp
  | index => simp at hp
  | _ => rfl

/-- An instruction whose meaning is "advance, then write `a` to I" changes I and PC only. -/
theorem indexWrite_of_exec {i : Instr} {s : State} {a : Addr} (h : exec i s = .next (s.advance.setIndex a)) :
    ∃ t, exec i s = .next t ∧ t.index.toNat = a.toNat ∧ t.pc = s.pc + 2 ∧ FrameExcept s t [.pc, .index] :=
  ⟨_, h, congrArg BitVec.toNat (State.setIndex_index s.advance a), State.advance_pc s, frameExcept_advance_setIndex s a⟩

/-- A glyph's address never wraps: 255 * 5 fits 16 bits, so the whole of V[X] counts (R186). -/
theorem toNat_wordOf_mul_five (b : Byte) : (wordOf b * 5).toNat = b.toNat * 5 := by
  have hb := b.isLt
  have hfive : (5 : Addr).toNat = 5 := rfl
  simp only [wordOf, BitVec.toNat_mul, BitVec.toNat_setWidth, hfive]
  omega

/-- Settles O30: both are an advance and one write of I, whose value is a number that fits 16 bits. -/
theorem indexLoads : Obligations.IndexLoads := by
  unfold Obligations.IndexLoads
  intro nnn x s
  have hldI := indexWrite_of_exec (i := .ldI nnn) (s := s) rfl
  have hldF := indexWrite_of_exec (i := .ldF x) (s := s) rfl
  rw [toNat_addrOf] at hldI
  rw [toNat_wordOf_mul_five] at hldF
  have hword : (encode (.ldF x)).toNat = 0xF029 + 0x100 * x.val :=
    (toNat_wordXNN 0xF x 0x29).trans (Nat.add_right_comm 0xF000 (0x100 * x.val) 0x29)
  exact ⟨toNat_wordNNN 0xA nnn, hldI, hword, hldF⟩

end Sys2Proof.Machine

namespace Sys2Proof.Machine

/-! ## Clearing the display (R210) -/

/-- Advancing PC and replacing the display leaves every part that is not a pixel, but for PC and REDRAW. -/
theorem frameExceptDisplay_advance_setDisplay (s : State) (d : Display) :
    FrameExceptDisplay s (s.advance.setDisplay d) [.pc, .redraw] := by
  intro p hp hpixel
  cases p with
  | pc => simp at hp
  | redraw => simp at hp
  | pixel y x => exact absurd rfl (hpixel y x)
  | _ => rfl

/-- Settles O38: 00E0 is an advance and one write of the blank display. -/
theorem clearDarkensEveryPixel : Obligations.ClearDarkensEveryPixel := by
  unfold Obligations.ClearDarkensEveryPixel
  refine ⟨rfl, fun s => ⟨s.advance.setDisplay Display.blank, rfl, fun y x => ?_, State.setDisplay_redraw _ _,
    State.advance_pc s, frameExceptDisplay_advance_setDisplay s Display.blank⟩⟩
  rw [State.setDisplay_disp, Display.pixel_blank]

end Sys2Proof.Machine

namespace Sys2Proof

/-! ## The rows of the opcode map never overlap (R80) -/

/-- The patterns of two different rows differ on the bits that both masks select. -/
theorem opcodeMap_patterns_differ : ∀ j k : Fin opcodeMap.length,
    opcodeMap[j].pattern &&& opcodeMap[k].mask = opcodeMap[k].pattern &&& opcodeMap[j].mask → j = k := by decide

/-- At most one row of the opcode map applies to an opcode. -/
theorem opcodeMap_row_unique {op : Opcode} {j k : Fin opcodeMap.length} (hj : opcodeMap[j].applies op = true)
    (hk : opcodeMap[k].applies op = true) : j = k := by
  have hpj : op &&& opcodeMap[j].mask = opcodeMap[j].pattern := beq_iff_eq.1 hj
  have hpk : op &&& opcodeMap[k].mask = opcodeMap[k].pattern := beq_iff_eq.1 hk
  apply opcodeMap_patterns_differ
  rw [← hpj, ← hpk, BitVec.and_assoc, BitVec.and_assoc, BitVec.and_comm opcodeMap[j].mask]

/-- A word decodes exactly if a row applies to it, and then it decodes to what that row builds. -/
theorem decode_eq_ok_iff (op : Opcode) (i : Instr) :
    decode op = .ok i ↔ ∃ j : Fin opcodeMap.length, opcodeMap[j].applies op = true ∧ opcodeMap[j].build op = i := by
  unfold decode
  cases hfind : opcodeMap.find? (fun r => r.applies op) with
  | none =>
    rw [List.find?_eq_none] at hfind
    simp only [reduceCtorEq, false_iff]
    rintro ⟨j, hj, -⟩
    exact hfind _ (List.getElem_mem j.isLt) hj
  | some r =>
    obtain ⟨n, hn, rfl⟩ := List.getElem_of_mem (List.mem_of_find?_eq_some hfind)
    have hr := List.find?_some (p := fun r : OpRow => r.applies op) hfind
    constructor
    · intro h
      exact ⟨⟨n, hn⟩, hr, Except.ok.inj h⟩
    · rintro ⟨j, hj, rfl⟩
      obtain rfl : j = ⟨n, hn⟩ := opcodeMap_row_unique hj hr
      rfl

/-- Settles O4: two patterns never agree on the bits both masks select, so the row that applies is the one found. -/
theorem opcodeMapRowsNeverOverlap : Obligations.OpcodeMapRowsNeverOverlap := by
  unfold Obligations.OpcodeMapRowsNeverOverlap
  exact ⟨rfl, fun op j k hj => ⟨(decode_eq_ok_iff op _).2 ⟨j, hj, rfl⟩, fun hk => opcodeMap_row_unique hj hk⟩⟩

/-! ## Decoding what the encoder writes -/

/-- Every instruction meets the per-instruction statement of Sys2Proof/Laws/PerInstr.lean. -/
theorem fieldsFit_statement (i : Instr) : Laws.FieldsFit.Statement i := by
  cases i with
  | cls => exact Laws.FieldsFit.cls
  | ret => exact Laws.FieldsFit.ret
  | jp nnn => exact Laws.FieldsFit.jp nnn
  | call nnn => exact Laws.FieldsFit.call nnn
  | seImm x nn => exact Laws.FieldsFit.seImm x nn
  | sneImm x nn => exact Laws.FieldsFit.sneImm x nn
  | seReg x y => exact Laws.FieldsFit.seReg x y
  | ldImm x nn => exact Laws.FieldsFit.ldImm x nn
  | addImm x nn => exact Laws.FieldsFit.addImm x nn
  | ldReg x y => exact Laws.FieldsFit.ldReg x y
  | orReg x y => exact Laws.FieldsFit.orReg x y
  | andReg x y => exact Laws.FieldsFit.andReg x y
  | xorReg x y => exact Laws.FieldsFit.xorReg x y
  | addReg x y => exact Laws.FieldsFit.addReg x y
  | sub x y => exact Laws.FieldsFit.sub x y
  | shr x y => exact Laws.FieldsFit.shr x y
  | subn x y => exact Laws.FieldsFit.subn x y
  | shl x y => exact Laws.FieldsFit.shl x y
  | sneReg x y => exact Laws.FieldsFit.sneReg x y
  | ldI nnn => exact Laws.FieldsFit.ldI nnn
  | jpV0 nnn => exact Laws.FieldsFit.jpV0 nnn
  | rnd x nn => exact Laws.FieldsFit.rnd x nn
  | drw x y n => exact Laws.FieldsFit.drw x y n
  | skp x => exact Laws.FieldsFit.skp x
  | sknp x => exact Laws.FieldsFit.sknp x
  | ldVxDT x => exact Laws.FieldsFit.ldVxDT x
  | ldVxK x => exact Laws.FieldsFit.ldVxK x
  | ldDTVx x => exact Laws.FieldsFit.ldDTVx x
  | ldSTVx x => exact Laws.FieldsFit.ldSTVx x
  | addI x => exact Laws.FieldsFit.addI x
  | ldF x => exact Laws.FieldsFit.ldF x
  | ldB x => exact Laws.FieldsFit.ldB x
  | ldMemVx x => exact Laws.FieldsFit.ldMemVx x
  | ldVxMem x => exact Laws.FieldsFit.ldVxMem x

theorem decode_encode (i : Instr) : decode (encode i) = .ok i :=
  (decode_eq_ok_iff _ i).2 (fieldsFit_statement i).2

/-- The two bytes of an opcode, high byte first, are the opcode (R55). -/
@[simp] theorem opcodeOfBytes_hi_lo (op : Opcode) : opcodeOfBytes (opcodeHi op) (opcodeLo op) = op := by
  apply BitVec.eq_of_toNat_eq
  have hop := op.isLt
  simp only [opcodeOfBytes, opcodeHi, opcodeLo, toNat_append_eq_mul_add, BitVec.extractLsb'_toNat,
    Nat.shiftRight_eq_div_pow]
  omega

/-- Two bytes whose opcode decodes are an instruction, and the bytes after them are left over. -/
theorem decodeBytes_of_decode {hi lo : Byte} {i : Instr} (rest : List Byte)
    (h : decode (opcodeOfBytes hi lo) = .ok i) : decodeBytes (hi :: lo :: rest) = .ok (i, rest) := by
  simp only [decodeBytes, h]

/-- Settles O2: the row of the map named by FieldsFit applies to the encoded word and reads the operands back. -/
theorem decodeOfEncodeIsIdentity : Obligations.DecodeOfEncodeIsIdentity := by
  unfold Obligations.DecodeOfEncodeIsIdentity
  intro i
  have hword : decode (opcodeOfBytes (opcodeHi (encode i)) (opcodeLo (encode i))) = .ok i := by
    rw [opcodeOfBytes_hi_lo, decode_encode]
  exact ⟨(fieldsFit_statement i).1, decode_encode i, fun rest => decodeBytes_of_decode rest hword⟩

/-- Settles O1: thirteen words from the opcode map and one that no row matches, evaluated. -/
theorem specWordsDecode : Obligations.SpecWordsDecode := by
  unfold Obligations.SpecWordsDecode
  decide

/-! ## Encoding what the decoder reads -/

theorem toNat_opNNN (op : Opcode) : (opNNN op).toNat = op.toNat % 0x1000 := rfl

theorem toNat_opNN (op : Opcode) : (opNN op).toNat = op.toNat % 0x100 := rfl

theorem val_opX (op : Opcode) : (opX op).val = op.toNat / 0x100 % 0x10 := by
  rw [opX, BitVec.val_toFin, BitVec.extractLsb'_toNat, Nat.shiftRight_eq_div_pow]

theorem val_opY (op : Opcode) : (opY op).val = op.toNat / 0x10 % 0x10 := by
  rw [opY, BitVec.val_toFin, BitVec.extractLsb'_toNat, Nat.shiftRight_eq_div_pow]

/-- A word is the address form of its own fields (R74). -/
theorem wordNNN_fields (op : Opcode) : wordNNN (opT op) (opNNN op) = op := by
  apply BitVec.eq_of_toNat_eq
  rw [toNat_wordNNN, toNat_opT, toNat_opNNN]
  omega

/-- A word is the register-immediate form of its own fields (R74). -/
theorem wordXNN_fields (op : Opcode) : wordXNN (opT op) (opX op) (opNN op) = op := by
  apply BitVec.eq_of_toNat_eq
  rw [toNat_wordXNN, toNat_opT, val_opX, toNat_opNN]
  omega

/-- A word is the register-register form of its own fields (R74). -/
theorem wordXYN_fields (op : Opcode) : wordXYN (opT op) (opX op) (opY op) (BitVec.ofFin (opN op)) = op := by
  have hN : (BitVec.ofFin (opN op) : BitVec 4).toNat = op.toNat % 0x10 := val_opN op
  apply BitVec.eq_of_toNat_eq
  rw [toNat_wordXYN, toNat_opT, val_opX, val_opY, hN]
  omega

section Rows

variable {op pattern : Opcode} {build : Opcode → Instr} {t : BitVec 4}

/-- A row whose mask covers T fixes T (R80). -/
theorem OpRow.opT_eq {r : OpRow} (h : r.applies op = true) (hmask : opT r.mask = BitVec.allOnes 4)
    (ht : opT r.pattern = t) : opT op = t :=
  (OpRow.extractLsb'_eq_pattern 12 4 h hmask).trans ht

/-- A row that fixes all 16 bits applies to its pattern only. -/
theorem eq_pattern_of_applies (h : OpRow.applies ⟨0xFFFF, pattern, build⟩ op = true) : pattern = op := by
  have hand : op &&& BitVec.allOnes 16 = pattern := beq_iff_eq.1 h
  rw [← hand, BitVec.and_allOnes]

/-- A row that fixes T alone: the address form of the fields gives the word back. -/
theorem wordNNN_of_applies (h : OpRow.applies ⟨0xF000, pattern, build⟩ op = true) (ht : opT pattern = t) :
    wordNNN t (opNNN op) = op := by
  rw [← OpRow.opT_eq h (show opT 0xF000 = _ by decide) ht, wordNNN_fields]

/-- A row that fixes T alone: the register-immediate form of the fields gives the word back. -/
theorem wordXNN_of_applies (h : OpRow.applies ⟨0xF000, pattern, build⟩ op = true) (ht : opT pattern = t) :
    wordXNN t (opX op) (opNN op) = op := by
  rw [← OpRow.opT_eq h (show opT 0xF000 = _ by decide) ht, wordXNN_fields]

/-- A row that fixes T alone: the sprite form of the fields gives the word back. -/
theorem wordXYN_of_applies (h : OpRow.applies ⟨0xF000, pattern, build⟩ op = true) (ht : opT pattern = t) :
    wordXYN t (opX op) (opY op) (BitVec.ofFin (opN op)) = op := by
  rw [← OpRow.opT_eq h (show opT 0xF000 = _ by decide) ht, wordXYN_fields]

/-- A row that fixes T and N: the register-register form of the fields gives the word back. -/
theorem wordXYN_of_applies_N {n : BitVec 4} (h : OpRow.applies ⟨0xF00F, pattern, build⟩ op = true)
    (ht : opT pattern = t) (hn : pattern.extractLsb' 0 4 = n) : wordXYN t (opX op) (opY op) n = op := by
  have hN : op.extractLsb' 0 4 = n := (OpRow.extractLsb'_eq_pattern 0 4 h (show BitVec.extractLsb' 0 4 0xF00F#16 = _ by decide)).trans hn
  rw [← OpRow.opT_eq h (show opT 0xF00F = _ by decide) ht, ← hN]
  exact wordXYN_fields op

/-- A row that fixes T and NN: the register form of the fields gives the word back. -/
theorem wordXNN_of_applies_NN {nn : Byte} (h : OpRow.applies ⟨0xF0FF, pattern, build⟩ op = true)
    (ht : opT pattern = t) (hnn : opNN pattern = nn) : wordXNN t (opX op) nn = op := by
  have hNN : opNN op = nn := (OpRow.extractLsb'_eq_pattern 0 8 h (show opNN 0xF0FF = _ by decide)).trans hnn
  rw [← OpRow.opT_eq h (show opT 0xF0FF = _ by decide) ht, ← hNN, wordXNN_fields]

end Rows

/-- Encoding what the row builds from a word it applies to gives the word back. -/
def OpRow.EncodesBack (r : OpRow) : Prop := ∀ op, r.applies op = true → encode (r.build op) = op

theorem rowsFlow_encodeBack : ∀ r ∈ rowsFlow, r.EncodesBack := by
  simp only [rowsFlow, List.forall_mem_cons]
  exact ⟨fun _ h => eq_pattern_of_applies h, fun _ h => eq_pattern_of_applies h,
    fun _ h => wordNNN_of_applies h rfl, fun _ h => wordNNN_of_applies h rfl, fun _ h => wordXNN_of_applies h rfl,
    fun _ h => wordXNN_of_applies h rfl, fun _ h => wordXYN_of_applies_N h rfl rfl,
    fun _ h => wordXNN_of_applies h rfl, fun _ h => wordXNN_of_applies h rfl, by simp⟩

theorem rowsAlu_encodeBack : ∀ r ∈ rowsAlu, r.EncodesBack := by
  simp only [rowsAlu, List.forall_mem_cons]
  exact ⟨fun _ h => wordXYN_of_applies_N h rfl rfl, fun _ h => wordXYN_of_applies_N h rfl rfl,
    fun _ h => wordXYN_of_applies_N h rfl rfl, fun _ h => wordXYN_of_applies_N h rfl rfl,
    fun _ h => wordXYN_of_applies_N h rfl rfl, fun _ h => wordXYN_of_applies_N h rfl rfl,
    fun _ h => wordXYN_of_applies_N h rfl rfl, fun _ h => wordXYN_of_applies_N h rfl rfl,
    fun _ h => wordXYN_of_applies_N h rfl rfl, fun _ h => wordXYN_of_applies_N h rfl rfl, by simp⟩

theorem rowsMisc_encodeBack : ∀ r ∈ rowsMisc, r.EncodesBack := by
  simp only [rowsMisc, List.forall_mem_cons]
  exact ⟨fun _ h => wordNNN_of_applies h rfl, fun _ h => wordNNN_of_applies h rfl,
    fun _ h => wordXNN_of_applies h rfl, fun _ h => wordXYN_of_applies h rfl,
    fun _ h => wordXNN_of_applies_NN h rfl rfl, fun _ h => wordXNN_of_applies_NN h rfl rfl, by simp⟩

theorem rowsFunction_encodeBack : ∀ r ∈ rowsFunction, r.EncodesBack := by
  simp only [rowsFunction, List.forall_mem_cons]
  exact ⟨fun _ h => wordXNN_of_applies_NN h rfl rfl, fun _ h => wordXNN_of_applies_NN h rfl rfl,
    fun _ h => wordXNN_of_applies_NN h rfl rfl, fun _ h => wordXNN_of_applies_NN h rfl rfl,
    fun _ h => wordXNN_of_applies_NN h rfl rfl, fun _ h => wordXNN_of_applies_NN h rfl rfl,
    fun _ h => wordXNN_of_applies_NN h rfl rfl, fun _ h => wordXNN_of_applies_NN h rfl rfl,
    fun _ h => wordXNN_of_applies_NN h rfl rfl, by simp⟩

theorem opcodeMap_encodeBack : ∀ r ∈ opcodeMap, r.EncodesBack := by
  simp only [opcodeMap, List.forall_mem_append]
  exact ⟨⟨⟨rowsFlow_encodeBack, rowsAlu_encodeBack⟩, rowsMisc_encodeBack⟩, rowsFunction_encodeBack⟩

/-- Settles O3: each row fixes the selector fields, and its operands are all the other fields. -/
theorem encodeOfDecodeIsIdentity : Obligations.EncodeOfDecodeIsIdentity := by
  unfold Obligations.EncodeOfDecodeIsIdentity
  intro op i h
  obtain ⟨j, happ, rfl⟩ := (decode_eq_ok_iff op i).1 h
  exact opcodeMap_encodeBack _ (List.getElem_mem j.isLt) op happ

/-! ## The unmatched opcodes (R84) -/

/-- What a mask of the opcode map leaves of a word: its fields T, T and N, or T and NN. -/
theorem and_mask_T (op : Opcode) : op &&& 0xF000 = wordNNN (opT op) 0 := by
  conv_lhs => rw [← wordNNN_fields op, wordNNN_mask]

theorem and_mask_T_N (op : Opcode) : op &&& 0xF00F = wordXYN (opT op) 0 0 (BitVec.ofFin (opN op)) := by
  conv_lhs => rw [← wordXYN_fields op, wordXYN_maskN]

theorem and_mask_T_NN (op : Opcode) : op &&& 0xF0FF = wordXNN (opT op) 0 (opNN op) := by
  conv_lhs => rw [← wordXNN_fields op, wordXNN_maskNN]

theorem and_mask_all (op : Opcode) : op &&& 0xFFFF = op := BitVec.and_allOnes

section RowsAsNumbers

variable {op pattern : Opcode} {build : Opcode → Instr}

/-- A row does not apply exactly if the numbers its mask selects are not those of its pattern. -/
theorem not_applies_all_iff : OpRow.applies ⟨0xFFFF, pattern, build⟩ op = false ↔ op.toNat ≠ pattern.toNat := by
  rw [OpRow.applies, beq_eq_false_iff_ne, and_mask_all, Ne, ← BitVec.toNat_inj]

theorem not_applies_T_iff : OpRow.applies ⟨0xF000, pattern, build⟩ op = false ↔
    0x1000 * (op.toNat / 0x1000) ≠ pattern.toNat := by
  rw [OpRow.applies, beq_eq_false_iff_ne, and_mask_T, Ne, ← BitVec.toNat_inj, toNat_wordNNN, toNat_opT]
  rfl

theorem not_applies_T_N_iff : OpRow.applies ⟨0xF00F, pattern, build⟩ op = false ↔
    0x1000 * (op.toNat / 0x1000) + op.toNat % 0x10 ≠ pattern.toNat := by
  rw [OpRow.applies, beq_eq_false_iff_ne, and_mask_T_N, Ne, ← BitVec.toNat_inj, toNat_wordXYN, toNat_opT]
  rfl

theorem not_applies_T_NN_iff : OpRow.applies ⟨0xF0FF, pattern, build⟩ op = false ↔
    0x1000 * (op.toNat / 0x1000) + op.toNat % 0x100 ≠ pattern.toNat := by
  rw [OpRow.applies, beq_eq_false_iff_ne, and_mask_T_NN, Ne, ← BitVec.toNat_inj, toNat_wordXNN, toNat_opT, toNat_opNN]
  rfl

end RowsAsNumbers

/-- Which words no row of a group matches, group by group of the opcode map. -/
theorem rowsFlow_unmatched_iff (op : Opcode) : (∀ r ∈ rowsFlow, r.applies op = false) ↔
    op.toNat ≠ 0x00E0 ∧ op.toNat ≠ 0x00EE ∧ op.toNat / 0x1000 ∉ [1, 2, 3, 4, 6, 7] ∧
      (op.toNat / 0x1000 = 5 → op.toNat % 16 ≠ 0) := by
  simp only [rowsFlow, List.forall_mem_cons, not_applies_all_iff, not_applies_T_iff, not_applies_T_N_iff]
  simp only [BitVec.ofNat_eq_ofNat, BitVec.toNat_ofNat, Nat.reducePow, Nat.reduceMod, List.not_mem_nil,
    IsEmpty.forall_iff, implies_true, and_true, List.mem_cons, or_false]
  omega

theorem rowsAlu_unmatched_iff (op : Opcode) : (∀ r ∈ rowsAlu, r.applies op = false) ↔
    (op.toNat / 0x1000 = 8 → op.toNat % 16 ∈ [0x8, 0x9, 0xA, 0xB, 0xC, 0xD, 0xF]) ∧
      (op.toNat / 0x1000 = 9 → op.toNat % 16 ≠ 0) := by
  simp only [rowsAlu, List.forall_mem_cons, not_applies_T_N_iff]
  simp only [BitVec.ofNat_eq_ofNat, BitVec.toNat_ofNat, Nat.reducePow, Nat.reduceMod, List.not_mem_nil,
    IsEmpty.forall_iff, implies_true, and_true, List.mem_cons, or_false]
  omega

theorem rowsMisc_unmatched_iff (op : Opcode) : (∀ r ∈ rowsMisc, r.applies op = false) ↔
    op.toNat / 0x1000 ∉ [0xA, 0xB, 0xC, 0xD] ∧ (op.toNat / 0x1000 = 0xE → op.toNat % 256 ∉ [0x9E, 0xA1]) := by
  simp only [rowsMisc, List.forall_mem_cons, not_applies_T_iff, not_applies_T_NN_iff]
  simp only [BitVec.ofNat_eq_ofNat, BitVec.toNat_ofNat, Nat.reducePow, Nat.reduceMod, List.not_mem_nil,
    IsEmpty.forall_iff, implies_true, and_true, List.mem_cons, or_false]
  omega

theorem rowsFunction_unmatched_iff (op : Opcode) : (∀ r ∈ rowsFunction, r.applies op = false) ↔
    (op.toNat / 0x1000 = 0xF →
      op.toNat % 256 ∉ [0x07, 0x0A, 0x15, 0x18, 0x1E, 0x29, 0x33, 0x55, 0x65]) := by
  simp only [rowsFunction, List.forall_mem_cons, not_applies_T_NN_iff]
  simp only [BitVec.ofNat_eq_ofNat, BitVec.toNat_ofNat, Nat.reducePow, Nat.reduceMod, List.not_mem_nil,
    IsEmpty.forall_iff, implies_true, and_true, List.mem_cons, or_false]
  omega

/-- Settles O5: row by row the masks select numbers; then one case per primary opcode. -/
theorem unmatchedOpcodesAreExactlyTheListed : Obligations.UnmatchedOpcodesAreExactlyTheListed := by
  unfold Obligations.UnmatchedOpcodesAreExactlyTheListed
  intro op
  have hT : op.toNat / 0x1000 < 16 := by have := op.isLt; omega
  have h0 : op.toNat < 0x1000 ↔ op.toNat / 0x1000 = 0 := by omega
  have hE0 : op.toNat = 0x00E0 → op.toNat / 0x1000 = 0 := by omega
  have hEE : op.toNat = 0x00EE → op.toNat / 0x1000 = 0 := by omega
  simp only [decode_eq_unmatched_iff, opcodeMap, List.forall_mem_append, rowsFlow_unmatched_iff,
    rowsAlu_unmatched_iff, rowsMisc_unmatched_iff, rowsFunction_unmatched_iff, Machine.unmatchedProse, h0, Ne,
    ← BitVec.toNat_inj]
  generalize op.toNat / 0x1000 = T at *
  interval_cases T <;> simp_all

end Sys2Proof

namespace Sys2Proof

open Machine

/-! ## What an instruction does, said once: its condition, its effect, its fault (R94, R96, R260)

`exec` is the effect if the condition holds and else the fault; `exec_of_ready` and `exec_of_not_ready` tie the three to it.  The
effects are written as updates of single fields, so that what they leave alone and what they do not read is so by definition. -/

/-- The condition under which an instruction takes no fault (R96). -/
def Instr.Ready : Instr → State → Prop
  | .ret, s => s.sp ≠ 0
  | .call _, s => s.sp < s.cfg.stackCapacity
  | .drw _ y n, s => s.visibleRows y n = 0 ∨ s.index.toNat + s.visibleRows y n - 1 ≤ 4095
  | .skp x, s => (s.reg x).toNat < 16
  | .sknp x, s => (s.reg x).toNat < 16
  | .addI x, s => s.index.toNat + (s.reg x).toNat ≤ 0xFFFF
  | .ldB _, s => s.index.toNat + 2 ≤ 4095
  | .ldMemVx x, s => s.index.toNat + x.val ≤ 4095
  | .ldVxMem x, s => s.index.toNat + x.val ≤ 4095
  | _, _ => True

/-- The column `addr` of an instruction's fault record (R260). -/
def Instr.faultAddr : Instr → State → Option Nat
  | .drw _ _ _, s => some s.firstBadAddr
  | .ldB _, s => some s.firstBadAddr
  | .ldMemVx _, s => some s.firstBadAddr
  | .ldVxMem _, s => some s.firstBadAddr
  | .skp x, s => some (s.reg x).toNat
  | .sknp x, s => some (s.reg x).toNat
  | _, _ => none

/-- PC past the opcode, and past one more if `c` (R92, R114). -/
def Machine.State.skipTo (s : State) (c : Bool) : State := s.setPc (if c then s.pc + 4 else s.pc + 2)

/-- The key `V[x]` names when it names one (R232). -/
def Machine.State.keyOf (s : State) (x : Reg) : Key := Fin.ofNat 16 (s.reg x).toNat

/-- The registers after a logic result: VF is 0 under ORIGINAL (R151). -/
def Machine.State.logicRegs (s : State) (x : Reg) (r : Byte) : Vector Byte 16 :=
  match s.cfg.variant with
  | .original => (s.v.set x.val r).set vF.val 0
  | .extended => s.v.set x.val r

/-- Advance PC and write the result of a logic instruction (R151). -/
def Machine.State.logicTo (s : State) (x : Reg) (r : Byte) : State := { s.advance with v := s.logicRegs x r }

/-- The memory after bytes are written at consecutive ascending addresses (R56). -/
def Machine.Memory.writeList (font : Vector Byte 80) (m : Memory) (a : Nat) : List Byte → Memory
  | [] => m
  | b :: bs => Memory.writeList font (Memory.write font m a b) (a + 1) bs

/-- The registers after the loop of FX65 over the registers of the list (R192). -/
def Machine.State.loadedRegs (s : State) (js : List Reg) : Vector Byte 16 :=
  js.foldl (fun v j => v.set j.val (s.readMem (s.dataAddr j.val))) s.v

/-- The effect of an instruction whose condition holds. -/
def Instr.effect : Instr → State → State
  | .cls, s => s.advance.setDisplay Display.blank
  | .ret, s => s.pop.setPc (s.stackEntry (s.sp - 1))
  | .jp nnn, s => s.setPc (addrOf nnn)
  | .call nnn, s => (s.push (s.pc + 2)).setPc (addrOf nnn)
  | .seImm x nn, s => s.skipTo (decide (s.reg x = nn))
  | .sneImm x nn, s => s.skipTo (decide (s.reg x ≠ nn))
  | .seReg x y, s => s.skipTo (decide (s.reg x = s.reg y))
  | .sneReg x y, s => s.skipTo (decide (s.reg x ≠ s.reg y))
  | .skp x, s => s.skipTo (s.keyDown (s.keyOf x))
  | .sknp x, s => s.skipTo (!s.keyDown (s.keyOf x))
  | .ldImm x nn, s => s.advance.setReg x nn
  | .addImm x nn, s => s.advance.setReg x (s.reg x + nn)
  | .ldReg x y, s => s.advance.setReg x (s.reg y)
  | .orReg x y, s => s.logicTo x (s.reg x ||| s.reg y)
  | .andReg x y, s => s.logicTo x (s.reg x &&& s.reg y)
  | .xorReg x y, s => s.logicTo x (s.reg x ^^^ s.reg y)
  | .addReg x y, s => s.advance.setResultFlag x (s.reg x + s.reg y) (carryFlag (s.reg x) (s.reg y))
  | .sub x y, s => s.advance.setResultFlag x (s.reg x - s.reg y) (notBorrowFlag (s.reg x) (s.reg y))
  | .subn x y, s => s.advance.setResultFlag x (s.reg y - s.reg x) (notBorrowFlag (s.reg y) (s.reg x))
  | .shr x y, s => s.advance.setResultFlag x (s.shiftSource x y >>> 1) (lowBitFlag (s.shiftSource x y))
  | .shl x y, s => s.advance.setResultFlag x (s.shiftSource x y <<< 1) (highBitFlag (s.shiftSource x y))
  | .ldI nnn, s => s.advance.setIndex (addrOf nnn)
  | .jpV0 nnn, s => s.setPc (addrOf nnn + wordOf (s.reg v0))
  | .rnd x nn, s => rndWith (Config.randomByte s.draws) x nn s
  | .drw x y n, s => drawEffect x y n s
  | .ldVxDT x, s => s.advance.setReg x s.dt
  | .ldVxK x, s => s.advance.setSub (s.sampleKey x)
  | .ldDTVx x, s => s.advance.setDT (s.reg x)
  | .ldSTVx x, s => s.advance.setST (s.reg x)
  | .addI x, s => s.advance.setIndex (s.index + wordOf (s.reg x))
  | .ldF x, s => s.advance.setIndex (wordOf (s.reg x) * 5)
  | .ldB x, s => { s.advance with mem := Memory.writeList s.cfg.font s.mem s.index.toNat (bcdDigits (s.reg x)) }
  | .ldMemVx x, s =>
    { s.advance with
      mem := Memory.writeList s.cfg.font s.mem s.index.toNat ((regsUpTo x).map s.reg)
      index := s.indexAfterTransfer x }
  | .ldVxMem x, s => { s.advance with v := s.loadedRegs (regsUpTo x), index := s.indexAfterTransfer x }

end Sys2Proof

namespace Sys2Proof.Machine

/-- Writing a logic result changes the register file alone. -/
theorem State.setLogicResult_eq (s : State) (x : Reg) (r : Byte) :
    s.setLogicResult x r = { s with v := s.logicRegs x r } := by
  unfold State.setLogicResult State.logicRegs
  cases s.cfg.variant <;> rfl

/-- Storing bytes writes them to the memory one after the other. -/
theorem State.writeBytes_eq_writeList (s : State) (a : Nat) (bs : List Byte) :
    s.writeBytes a bs = { s with mem := Memory.writeList s.cfg.font s.mem a bs } := by
  induction bs generalizing s a with
  | nil => rfl
  | cons b bs ih => exact ih (s.writeMem a b) (a + 1)

/-- Loading registers changes the register file alone, by the bytes as they were before the loop. -/
theorem State.loadRegs_eq_loadedRegs (s : State) (js : List Reg) : s.loadRegs js = { s with v := s.loadedRegs js } := by
  suffices h : ∀ t : State, js.foldl (fun t j => t.setReg j (s.readMem (s.dataAddr j.val))) t =
      { t with v := js.foldl (fun v j => v.set j.val (s.readMem (s.dataAddr j.val))) t.v } from h s
  induction js with
  | nil => exact fun t => rfl
  | cons j js ih => exact fun t => ih (t.setReg j (s.readMem (s.dataAddr j.val)))

theorem exec_logic_eq {i : Instr} {s : State} {x : Reg} {r : Byte}
    (h : exec i s = .next (s.advance.setLogicResult x r)) : exec i s = .next (s.logicTo x r) := by
  rw [h, State.setLogicResult_eq]
  rfl

theorem exec_skip_eq {i : Instr} {s : State} {c : Bool} (h : exec i s = .next (s.advance.skipIf c)) :
    exec i s = .next (s.skipTo c) := by
  rw [h, State.advance_skipIf]
  rfl

/-- A register below 16 names the key that the guard of R232 finds. -/
theorem State.guardKey_keyOf {s : State} {x : Reg} (op : Opcode) (k : Key → Result) (h : (s.reg x).toNat < 16) :
    s.guardKey op x k = k (s.keyOf x) :=
  State.guardKey_in op k (s.keyOf x) (Nat.mod_eq_of_lt h).symm

/-- Where its condition holds an instruction has its effect. -/
theorem exec_of_ready {i : Instr} {s : State} (h : i.Ready s) : exec i s = .next (i.effect s) := by
  cases i with
  | ret => exact if_neg h
  | call nnn => exact if_neg (Nat.not_le.2 h)
  | addI x => exact if_neg (Nat.not_lt.2 h)
  | drw x y n => exact execDrw_in h
  | skp x =>
    rw [exec, execSkp, State.guardKey_keyOf _ _ h, State.advance_skipIf]
    rfl
  | sknp x =>
    rw [exec, execSknp, State.guardKey_keyOf _ _ h, State.advance_skipIf]
    rfl
  | seImm x nn => exact exec_skip_eq rfl
  | sneImm x nn => exact exec_skip_eq rfl
  | seReg x y => exact exec_skip_eq rfl
  | sneReg x y => exact exec_skip_eq rfl
  | orReg x y => exact exec_logic_eq rfl
  | andReg x y => exact exec_logic_eq rfl
  | xorReg x y => exact exec_logic_eq rfl
  | ldB x => exact (State.guardData_in _ _ h).trans (congrArg _ (State.writeBytes_eq_writeList _ _ _))
  | ldMemVx x =>
    rw [exec, execLdMemVx, State.guardData_in _ _ h, State.writeBytes_eq_writeList]
    rfl
  | ldVxMem x =>
    rw [exec, execLdVxMem, State.guardData_in _ _ h, State.loadRegs_eq_loadedRegs]
    rfl
  | _ => rfl

/-- Where its condition fails an instruction takes its own fault, precise (R260, R265). -/
theorem exec_of_not_ready {i : Instr} {s : State} (h : ¬ i.Ready s) :
    ∃ c, i.ownFault = some c ∧
      exec i s = .next { s with fault := some ⟨c, s.pc, some (encode i), i.faultAddr s⟩ } := by
  cases i with
  | ret => exact ⟨_, rfl, if_pos (not_not.1 h)⟩
  | call nnn => exact ⟨_, rfl, if_pos (Nat.not_lt.1 h)⟩
  | addI x => exact ⟨_, rfl, if_pos (Nat.not_le.1 h)⟩
  | drw x y n =>
    obtain ⟨hrows, hpast⟩ := not_or.1 h
    exact ⟨_, rfl, execDrw_out hrows (Nat.not_le.1 hpast)⟩
  | skp x => exact ⟨_, rfl, by rw [exec, execSkp, State.guardKey_out _ _ (Nat.not_lt.1 h)]; rfl⟩
  | sknp x => exact ⟨_, rfl, by rw [exec, execSknp, State.guardKey_out _ _ (Nat.not_lt.1 h)]; rfl⟩
  | ldB x => exact ⟨_, rfl, State.guardData_out _ _ (Nat.not_le.1 h)⟩
  | ldMemVx x => exact ⟨_, rfl, State.guardData_out _ _ (Nat.not_le.1 h)⟩
  | ldVxMem x => exact ⟨_, rfl, State.guardData_out _ _ (Nat.not_le.1 h)⟩
  | _ => exact absurd trivial h

end Sys2Proof.Machine

namespace Sys2Proof.Machine

/-! ## What the effect of an instruction leaves unchanged -/

/-- Fields no instruction writes (R31, R32, R35), and the fault, which an effect leaves to the guards. -/
theorem effect_cfg (i : Instr) (s : State) : (i.effect s).cfg = s.cfg := by cases i <;> rfl
theorem effect_key (i : Instr) (s : State) : (i.effect s).key = s.key := by cases i <;> rfl
theorem effect_tone (i : Instr) (s : State) : (i.effect s).tone = s.tone := by cases i <;> rfl
theorem effect_fault (i : Instr) (s : State) : (i.effect s).fault = s.fault := by cases i <;> rfl

/-- Only FX15 writes DT (R237). -/
theorem effect_dt (i : Instr) (s : State) : (i.effect s).dt = s.dt ∨ ∃ x, i = .ldDTVx x := by
  cases i with
  | ldDTVx x => exact .inr ⟨x, rfl⟩
  | _ => exact .inl rfl

/-- Only FX18 writes ST (R238). -/
theorem effect_st (i : Instr) (s : State) : (i.effect s).st = s.st ∨ ∃ x, i = .ldSTVx x := by
  cases i with
  | ldSTVx x => exact .inr ⟨x, rfl⟩
  | _ => exact .inl rfl

/-- Only 00E0 and DXYN write the display and REDRAW (R29, R30, R218). -/
theorem effect_display (i : Instr) (s : State) :
    ((i.effect s).disp = s.disp ∧ (i.effect s).redraw = s.redraw) ∨ i = .cls ∨ ∃ x y n, i = .drw x y n := by
  cases i with
  | cls => exact .inr (.inl rfl)
  | drw x y n => exact .inr (.inr ⟨x, y, n, rfl⟩)
  | _ => exact .inl ⟨rfl, rfl⟩

/-- No instruction clears REDRAW (R30). -/
theorem effect_redraw {i : Instr} {s : State} (h : s.redraw = true) : (i.effect s).redraw = true := by
  cases i with
  | cls => rfl
  | drw x y n => rfl
  | _ => exact h

/-- Only FX33 and FX55 write memory (R51). -/
theorem effect_mem (i : Instr) (s : State) :
    (i.effect s).mem = s.mem ∨ (∃ x, i = .ldB x) ∨ ∃ x, i = .ldMemVx x := by
  cases i with
  | ldB x => exact .inr (.inl ⟨x, rfl⟩)
  | ldMemVx x => exact .inr (.inr ⟨x, rfl⟩)
  | _ => exact .inl rfl

/-- Only 00EE and 2NNN move the call stack (R28). -/
theorem effect_stack (i : Instr) (s : State) :
    ((i.effect s).sp = s.sp ∧ (i.effect s).stk = s.stk) ∨ i = .ret ∨ ∃ nnn, i = .call nnn := by
  cases i with
  | ret => exact .inr (.inl rfl)
  | call nnn => exact .inr (.inr ⟨nnn, rfl⟩)
  | _ => exact .inl ⟨rfl, rfl⟩

/-! ## The stores -/

theorem length_bcdDigits (b : Byte) : (bcdDigits b).length = 3 := rfl

theorem length_regsUpTo (x : Reg) : (regsUpTo x).length = x.val + 1 := by
  have hx := x.isLt
  rw [regsUpTo, List.length_take, List.length_finRange]
  omega

/-- What an address reads after a store, whatever else changes beside memory. -/
theorem readMem_of_store {s t : State} {a c : Nat} {bs : List Byte} (h : Memory.wf s.cfg.font s.mem = true)
    (ha : a + bs.length ≤ memSize) (hmem : t.mem = Memory.writeList s.cfg.font s.mem a bs) (hcfg : t.cfg = s.cfg) :
    t.readMem c = if c < a then s.readMem c else (bs[c - a]?).getD (s.readMem c) := by
  have hread := State.readMem_writeBytes s a c bs h ha
  rw [State.writeBytes_eq_writeList] at hread
  rw [State.readMem_congr (s := { s with mem := Memory.writeList s.cfg.font s.mem a bs }) hmem hcfg, hread]

/-- A byte outside the stored ones reads as before. -/
theorem readMem_of_store_outside {s t : State} {a c : Nat} {bs : List Byte} (h : Memory.wf s.cfg.font s.mem = true)
    (ha : a + bs.length ≤ memSize) (hmem : t.mem = Memory.writeList s.cfg.font s.mem a bs) (hcfg : t.cfg = s.cfg)
    (hc : c < a ∨ a + bs.length ≤ c) : t.readMem c = s.readMem c := by
  rw [readMem_of_store h ha hmem hcfg]
  split
  · rfl
  · rw [List.getElem?_eq_none (by omega)]
    rfl

/-- A store inside the memory keeps its canonical form. -/
theorem writeList_wf {s : State} {a : Nat} {bs : List Byte} (h : Memory.wf s.cfg.font s.mem = true)
    (ha : a + bs.length ≤ memSize) : Memory.wf s.cfg.font (Memory.writeList s.cfg.font s.mem a bs) = true := by
  have hwf := State.writeBytes_wf s a bs h ha
  rwa [State.writeBytes_eq_writeList] at hwf

/-- The bytes FX55 stores lie in memory if its condition holds. -/
theorem stored_registers_fit {s : State} {x : Reg} (h : (Instr.ldMemVx x).Ready s) :
    s.index.toNat + ((regsUpTo x).map s.reg).length ≤ memSize := by
  have hx : s.index.toNat + x.val ≤ 4095 := h
  rw [List.length_map, length_regsUpTo]
  exact Nat.succ_le_succ hx

/-- The digits FX33 stores lie in memory if its condition holds. -/
theorem stored_digits_fit {s : State} {x : Reg} (h : (Instr.ldB x).Ready s) :
    s.index.toNat + (bcdDigits (s.reg x)).length ≤ memSize := by
  have hx : s.index.toNat + 2 ≤ 4095 := h
  rw [length_bcdDigits]
  exact Nat.succ_le_succ hx

/-- An effect keeps the canonical form of memory. -/
theorem effect_memory_wf {i : Instr} {s : State} (h : Memory.wf s.cfg.font s.mem = true) (hready : i.Ready s) :
    Memory.wf s.cfg.font (i.effect s).mem = true := by
  rcases effect_mem i s with hmem | ⟨x, rfl⟩ | ⟨x, rfl⟩
  · rwa [hmem]
  · exact writeList_wf h (stored_digits_fit hready)
  · exact writeList_wf h (stored_registers_fit hready)

/-! ## What a step can do -/

/-- A step to a next state is the effect of the instruction fetched, an advance past an unmatched opcode, a precise fault in Running,
or a step of the key wait (R90). -/
theorem step_next_cases {s t : State} (h : step s = .next t) : s.fault = none ∧
    ((s.sub = .running ∧ s.fetchOk = true ∧ ∃ i, decode s.fetchOp = .ok i ∧ i.Ready s ∧ t = i.effect s) ∨
     (s.sub = .running ∧ s.fetchOk = true ∧ t = s.advance) ∨
     (s.sub = .running ∧ ∃ cause op addr, t = { s with fault := some ⟨cause, s.pc, op, addr⟩ }) ∨
     (∃ x, s.sub = .awaitKeyPress x ∧ t = awaitPress x s) ∨
     ∃ x k, s.sub = .awaitKeyRelease x k ∧ t = awaitRelease x k s) := by
  rcases step_cases s with ⟨r, -, hstep⟩ | ⟨hf, hs, ho, i, hd, hstep⟩ | ⟨hf, hs, ho, -, hstep⟩ | ⟨hf, hs, -, hstep⟩ |
    ⟨hf, x, hs, hstep⟩ | ⟨hf, x, k, hs, hstep⟩ <;> rw [hstep] at h
  · cases h
  · refine ⟨hf, ?_⟩
    by_cases hready : i.Ready s
    · rw [exec_of_ready hready] at h
      exact .inl ⟨hs, ho, i, hd, hready, (Host.Outcome.next.inj h).symm⟩
    · obtain ⟨c, -, hfault⟩ := exec_of_not_ready hready
      rw [hfault] at h
      exact .inr (.inr (.inl ⟨hs, c, _, _, (Host.Outcome.next.inj h).symm⟩))
  · refine ⟨hf, ?_⟩
    unfold execUnmatched at h
    cases hp : s.cfg.unknownPolicy with
    | nop =>
      rw [hp] at h
      exact .inr (.inl ⟨hs, ho, (Host.Outcome.next.inj h).symm⟩)
    | fault =>
      rw [hp] at h
      exact .inr (.inr (.inl ⟨hs, _, _, _, (Host.Outcome.next.inj h).symm⟩))
  · exact ⟨hf, .inr (.inr (.inl ⟨hs, _, _, _, (Host.Outcome.next.inj h).symm⟩))⟩
  · exact ⟨hf, .inr (.inr (.inr (.inl ⟨x, hs, (Host.Outcome.next.inj h).symm⟩)))⟩
  · exact ⟨hf, .inr (.inr (.inr (.inr ⟨x, k, hs, (Host.Outcome.next.inj h).symm⟩)))⟩

/-- The end of a key wait changes V[x] and SUB alone (R98). -/
theorem awaitRelease_eq (x : Reg) (k : Key) (s : State) :
    awaitRelease x k s = { s with v := (awaitRelease x k s).v, sub := (awaitRelease x k s).sub } := by
  unfold awaitRelease
  cases s.keyDown k <;> rfl

/-! ## The invariant (R26, R27, R265) -/

/-- PC after one opcode and after two, from where a fetch is possible. -/
theorem toNat_pc_add_two {a : Addr} (h : a.toNat + 1 ≤ 4095) : (a + 2).toNat = a.toNat + 2 := by bv_omega

theorem toNat_pc_add_four {a : Addr} (h : a.toNat + 1 ≤ 4095) : (a + 4).toNat = a.toNat + 4 := by bv_omega

theorem advance_pc_le {s : State} (h : s.pc.toNat + 1 ≤ 4095) : (s.pc + 2).toNat ≤ 0x10FE := by
  rw [toNat_pc_add_two h]
  omega

theorem skipTo_pc_le {s : State} (h : s.pc.toNat + 1 ≤ 4095) (c : Bool) : (s.skipTo c).pc.toNat ≤ 0x10FE := by
  cases c with
  | false => exact advance_pc_le h
  | true => exact (toNat_pc_add_four h).trans_le (by omega)

/-- No instruction takes PC above 0x10FE, if a return address is at most 4096 (R26). -/
theorem effect_pc_le {i : Instr} {s : State} (h : s.pc.toNat + 1 ≤ 4095) (hready : i.Ready s)
    (hstack : ∀ j, j < s.sp → (s.stackEntry j).toNat ≤ 4096) : (i.effect s).pc.toNat ≤ 0x10FE := by
  have htarget : ∀ nnn : BitVec 12, (addrOf nnn).toNat ≤ 0x10FE := fun nnn => by
    have hlt := nnn.isLt
    rw [toNat_addrOf]
    omega
  cases i with
  | ret => exact (hstack _ (Nat.sub_one_lt hready)).trans (by omega)
  | jp nnn => exact htarget nnn
  | call nnn => exact htarget nnn
  | jpV0 nnn =>
    have hn := nnn.isLt
    have hv := (s.reg v0).isLt
    exact (toNat_addrOf_add_wordOf nnn (s.reg v0)).trans_le (by omega)
  | seImm x nn => exact skipTo_pc_le h _
  | sneImm x nn => exact skipTo_pc_le h _
  | seReg x y => exact skipTo_pc_le h _
  | sneReg x y => exact skipTo_pc_le h _
  | skp x => exact skipTo_pc_le h _
  | sknp x => exact skipTo_pc_le h _
  | _ => exact advance_pc_le h

theorem Config.capacity_le {c : Config} (h : c.WellFormed = true) : c.stackCapacity ≤ 16 := by
  obtain ⟨-, hle, -⟩ := of_decide_eq_true h
  exact hle

/-- The call stack keeps its bounds: 00EE drops an entry, 2NNN adds PC + 2 below the capacity (R27, R110). -/
theorem effect_stack_bounds {i : Instr} {s : State} (hinv : s.Inv) (h : s.pc.toNat + 1 ≤ 4095) (hready : i.Ready s) :
    (i.effect s).sp ≤ s.cfg.stackCapacity ∧ ∀ j, j < (i.effect s).sp → ((i.effect s).stackEntry j).toNat ≤ 4096 := by
  rcases effect_stack i s with ⟨hsp, hstk⟩ | rfl | ⟨nnn, rfl⟩
  · rw [hsp]
    refine ⟨hinv.depth, fun j hj => ?_⟩
    rw [State.stackEntry, hstk]
    exact hinv.stackBound j hj
  · exact ⟨(Nat.sub_le _ _).trans hinv.depth, fun j hj => hinv.stackBound j (Nat.lt_of_lt_of_le hj (Nat.sub_le _ _))⟩
  · have hroom : s.sp < s.cfg.stackCapacity := hready
    have hcap := Config.capacity_le hinv.config
    refine ⟨hroom, fun j hj => ?_⟩
    have hj' : j < s.sp + 1 := hj
    change ((s.push (s.pc + 2)).stackEntry j).toNat ≤ 4096
    rw [State.stackEntry_push s _ j (by omega)]
    split
    · rw [toNat_pc_add_two h]
      omega
    · exact hinv.stackBound j (by omega)

/-- The effect of an instruction keeps the invariant. -/
theorem effect_inv {i : Instr} {s : State} (hinv : s.Inv) (hfault : s.fault = none) (hfetch : s.fetchOk = true)
    (hready : i.Ready s) : (i.effect s).Inv := by
  have hpc : s.pc.toNat + 1 ≤ 4095 := of_decide_eq_true hfetch
  obtain ⟨hdepth, hentries⟩ := effect_stack_bounds hinv hpc hready
  constructor
  case config => rw [effect_cfg]; exact hinv.config
  case memory => rw [effect_cfg]; exact effect_memory_wf hinv.memory hready
  case depth => rw [effect_cfg]; exact hdepth
  case pcBound => exact effect_pc_le hpc hready hinv.stackBound
  case stackBound => exact hentries
  case faultPlace =>
    intro r hr
    rw [effect_fault, hfault] at hr
    cases hr

/-- A state with the configuration, memory and call stack of one that meets the invariant meets it, if PC and the fault are in bounds. -/
theorem State.Inv.congr {s t : State} (hinv : s.Inv) (hcfg : t.cfg = s.cfg) (hmem : t.mem = s.mem) (hsp : t.sp = s.sp)
    (hstk : t.stk = s.stk) (hpc : t.pc.toNat ≤ 0x10FE) (hfault : ∀ r, t.fault = some r → r.pc = t.pc ∧ t.sub = .running) :
    t.Inv := by
  constructor
  case config => rw [hcfg]; exact hinv.config
  case memory => rw [hcfg, hmem]; exact hinv.memory
  case depth => rw [hcfg, hsp]; exact hinv.depth
  case pcBound => exact hpc
  case stackBound => rw [hsp]; simpa only [State.stackEntry, hstk] using hinv.stackBound
  case faultPlace => exact hfault

/-- Settles O53: an effect keeps every bound, an advance is at most 4096, a fault is taken at PC in Running, and a key-wait step
touches SUB and one register. -/
theorem stepKeepsTheInvariant : Obligations.StepKeepsTheInvariant := by
  unfold Obligations.StepKeepsTheInvariant
  intro s t hinv hstep
  obtain ⟨hf, hcases⟩ := step_next_cases hstep
  have hnone : ∀ {u : State}, u.fault = s.fault → ∀ r, u.fault = some r → r.pc = u.pc ∧ u.sub = .running :=
    fun hu r hr => nomatch (hu.trans hf).symm.trans hr
  rcases hcases with ⟨-, ho, i, -, hready, rfl⟩ | ⟨-, ho, rfl⟩ | ⟨hs, cause, op, addr, rfl⟩ | ⟨x, -, rfl⟩ | ⟨x, k, -, rfl⟩
  · exact effect_inv hinv hf ho hready
  · exact hinv.congr rfl rfl rfl rfl (advance_pc_le (of_decide_eq_true ho)) (hnone rfl)
  · exact hinv.congr rfl rfl rfl rfl hinv.pcBound fun r hr => by cases hr; exact ⟨rfl, hs⟩
  · exact hinv.congr rfl rfl rfl rfl hinv.pcBound (hnone rfl)
  · rw [awaitRelease_eq]
    exact hinv.congr rfl rfl rfl rfl hinv.pcBound (hnone rfl)

/-- Settles O52: each bound of the invariant, evaluated. -/
theorem resetMeetsTheInvariant : Obligations.ResetMeetsTheInvariant := by
  unfold Obligations.ResetMeetsTheInvariant
  constructor
  case config => decide
  case memory => exact reset_memory_wf
  case depth => decide
  case pcBound => decide
  case stackBound => exact fun j hj => absurd hj (Nat.not_lt_zero j)
  case faultPlace => exact fun r hr => nomatch hr

/-! ## Whole-machine rules about a step -/

/-- A held fault stops the step (R90, R266). -/
theorem step_of_fault {s : State} {r : FaultRecord} (h : s.fault = some r) : step s = .fault (.halted r) := by
  simp only [step, engineStep, h]

/-- The unmatched opcode answers a next state under either policy (R97). -/
theorem execUnmatched_next (op : Opcode) (s : State) : ∃ t, execUnmatched op s = .next t := by
  unfold execUnmatched
  cases s.cfg.unknownPolicy with
  | nop => exact ⟨_, rfl⟩
  | fault => exact ⟨_, rfl⟩

theorem exec_next (i : Instr) (s : State) : ∃ t, exec i s = .next t := by
  by_cases hready : i.Ready s
  · exact ⟨_, exec_of_ready hready⟩
  · obtain ⟨c, -, h⟩ := exec_of_not_ready hready
    exact ⟨_, h⟩

/-- While no fault is held a step answers a next state (R100). -/
theorem step_next {s : State} (h : s.fault = none) : ∃ t, step s = .next t := by
  rcases step_cases s with ⟨r, hf, -⟩ | ⟨-, -, -, i, -, hstep⟩ | ⟨-, -, -, -, hstep⟩ | ⟨-, -, -, hstep⟩ |
    ⟨-, x, -, hstep⟩ | ⟨-, x, k, -, hstep⟩
  · cases h.symm.trans hf
  · rw [hstep]; exact exec_next i s
  · rw [hstep]; exact execUnmatched_next _ s
  · exact ⟨_, hstep⟩
  · exact ⟨_, hstep⟩
  · exact ⟨_, hstep⟩

/-- Settles O12: with a fault held the step is the stop, without one it is a next state. -/
theorem stepAlwaysAnswersUnlessHalted : Obligations.StepAlwaysAnswersUnlessHalted := by
  unfold Obligations.StepAlwaysAnswersUnlessHalted
  intro s
  cases hf : s.fault with
  | none =>
    obtain ⟨t, ht⟩ := step_next hf
    simp [ht]
  | some r => simp [step_of_fault hf, eq_comm]

/-- Settles O13: of the five things a step can do only one sets FAULT, and it sets nothing else. -/
theorem faultsArePrecise : Obligations.FaultsArePrecise := by
  unfold Obligations.FaultsArePrecise
  intro s t hstep hf hne
  obtain ⟨-, ⟨-, -, i, -, -, rfl⟩ | ⟨-, -, rfl⟩ | ⟨-, cause, op, addr, rfl⟩ | ⟨x, -, rfl⟩ | ⟨x, k, -, rfl⟩⟩ :=
    step_next_cases hstep
  · exact absurd ((effect_fault i s).trans hf) hne
  · exact absurd hf hne
  · exact ⟨cause, op, addr, rfl⟩
  · exact absurd hf hne
  · rw [awaitRelease_eq] at hne
    exact absurd hf hne

/-- Settles O14: an effect sets no fault, and a failed condition sets the instruction's own. -/
theorem instructionsRaiseOnlyTheirOwnFault : Obligations.InstructionsRaiseOnlyTheirOwnFault := by
  unfold Obligations.InstructionsRaiseOnlyTheirOwnFault
  intro i s t r hexec hf ht
  by_cases hready : i.Ready s
  · rw [exec_of_ready hready] at hexec
    cases hexec
    cases hf.symm.trans ((effect_fault i s).symm.trans ht)
  · obtain ⟨c, hown, hfault⟩ := exec_of_not_ready hready
    rw [hfault] at hexec
    cases hexec
    cases ht
    exact ⟨hown, rfl, rfl⟩

/-- Settles O41: only two effects touch the display or REDRAW, and neither clears REDRAW. -/
theorem displayChangesOnlyByClearAndDraw : Obligations.DisplayChangesOnlyByClearAndDraw := by
  unfold Obligations.DisplayChangesOnlyByClearAndDraw
  intro s t hstep
  obtain ⟨-, ⟨hs, -, i, hd, -, rfl⟩ | ⟨-, -, rfl⟩ | ⟨-, cause, op, addr, rfl⟩ | ⟨x, -, rfl⟩ | ⟨x, k, -, rfl⟩⟩ :=
    step_next_cases hstep
  · refine ⟨fun hne => ⟨hs, ?_⟩, effect_redraw⟩
    rw [hd]
    rcases effect_display i s with ⟨hdisp, hredraw⟩ | rfl | ⟨x, y, n, rfl⟩
    · exact (hne.elim (· hdisp) (· hredraw)).elim
    · exact .inl rfl
    · exact .inr ⟨x, y, n, rfl⟩
  · exact ⟨fun hne => (hne.elim (· rfl) (· rfl)).elim, id⟩
  · exact ⟨fun hne => (hne.elim (· rfl) (· rfl)).elim, id⟩
  · exact ⟨fun hne => (hne.elim (· rfl) (· rfl)).elim, id⟩
  · rw [awaitRelease_eq]
    exact ⟨fun hne => (hne.elim (· rfl) (· rfl)).elim, id⟩

/-- Settles O49: no effect writes KEY, TONE or the configuration, and one effect writes each timer. -/
theorem stepLeavesHostStateAlone : Obligations.StepLeavesHostStateAlone := by
  unfold Obligations.StepLeavesHostStateAlone
  intro s t hstep
  obtain ⟨-, ⟨hs, -, i, hd, -, rfl⟩ | ⟨-, -, rfl⟩ | ⟨-, cause, op, addr, rfl⟩ | ⟨x, -, rfl⟩ | ⟨x, k, -, rfl⟩⟩ :=
    step_next_cases hstep
  · refine ⟨effect_key i s, effect_tone i s, effect_cfg i s, fun hne => ⟨hs, ?_⟩, fun hne => ⟨hs, ?_⟩⟩
    · obtain ⟨x, rfl⟩ := (effect_dt i s).resolve_left hne
      exact ⟨x, hd⟩
    · obtain ⟨x, rfl⟩ := (effect_st i s).resolve_left hne
      exact ⟨x, hd⟩
  · exact ⟨rfl, rfl, rfl, (absurd rfl ·), (absurd rfl ·)⟩
  · exact ⟨rfl, rfl, rfl, (absurd rfl ·), (absurd rfl ·)⟩
  · exact ⟨rfl, rfl, rfl, (absurd rfl ·), (absurd rfl ·)⟩
  · rw [awaitRelease_eq]
    exact ⟨rfl, rfl, rfl, (absurd rfl ·), (absurd rfl ·)⟩

/-- If an effect changes what an address reads, the instruction is a store and the address is one it lists (R51). -/
theorem effect_readMem {i : Instr} {s : State} {a : Nat} (h : Memory.wf s.cfg.font s.mem = true) (hready : i.Ready s)
    (hne : (i.effect s).readMem a ≠ s.readMem a) : s.index.toNat ≤ a ∧
      ((∃ x, i = .ldB x ∧ a ≤ s.index.toNat + 2) ∨ ∃ x, i = .ldMemVx x ∧ a ≤ s.index.toNat + x.val) := by
  rcases effect_mem i s with hmem | ⟨x, rfl⟩ | ⟨x, rfl⟩
  · exact absurd (State.readMem_congr hmem (effect_cfg i s) a) hne
  · have hin := mt (readMem_of_store_outside (t := (Instr.ldB x).effect s) h (stored_digits_fit hready) rfl rfl) hne
    rw [length_bcdDigits] at hin
    exact ⟨by omega, .inl ⟨x, rfl, by omega⟩⟩
  · have hin := mt (readMem_of_store_outside (t := (Instr.ldMemVx x).effect s) h (stored_registers_fit hready) rfl rfl) hne
    rw [List.length_map, length_regsUpTo] at hin
    exact ⟨by omega, .inr ⟨x, rfl, by omega⟩⟩

/-- Settles O37: memory changes only by the effect of a store, and only at the bytes it stores. -/
theorem onlyTheTwoStoresWriteMemory : Obligations.OnlyTheTwoStoresWriteMemory := by
  unfold Obligations.OnlyTheTwoStoresWriteMemory
  intro s t a hwf hstep hne
  obtain ⟨-, ⟨hs, -, i, hd, hready, rfl⟩ | ⟨-, -, rfl⟩ | ⟨-, cause, op, addr, rfl⟩ | ⟨x, -, rfl⟩ | ⟨x, k, -, rfl⟩⟩ :=
    step_next_cases hstep
  · rw [hd]
    obtain ⟨hlow, ⟨x, rfl, hhigh⟩ | ⟨x, rfl, hhigh⟩⟩ := effect_readMem hwf hready hne
    · exact ⟨hs, hlow, .inl ⟨x, rfl, hhigh⟩⟩
    · exact ⟨hs, hlow, .inr ⟨x, rfl, hhigh⟩⟩
  · exact absurd rfl hne
  · exact absurd rfl hne
  · exact absurd rfl hne
  · rw [awaitRelease_eq] at hne
    exact absurd rfl hne

/-! ## Who writes a register (R22, R23) -/

/-- A register write changes one register. -/
theorem eq_of_reg_setReg_ne {s : State} {x r : Reg} {b : Byte} (h : (s.setReg x b).reg r ≠ s.reg r) : r = x := by
  by_contra hne
  rw [State.reg_setReg, if_neg hne] at h
  exact h rfl

/-- A result with its flag changes two registers at most. -/
theorem eq_of_reg_setResultFlag_ne {s : State} {x r : Reg} {b : Byte} {c : Bool}
    (h : (s.setResultFlag x b c).reg r ≠ s.reg r) : r = x ∨ r = vF := by
  by_contra hne
  obtain ⟨hx, hvF⟩ := not_or.1 hne
  rw [State.reg_setResultFlag, if_neg hvF, if_neg hx] at h
  exact h rfl

/-- A logic result under each variant: VF ends 0 under ORIGINAL, X = 15 included (R151). -/
theorem State.reg_logicTo_original {s : State} (h : s.cfg.variant = .original) (x r : Reg) (b : Byte) :
    (s.logicTo x b).reg r = if r = vF then 0 else if r = x then b else s.reg r := by
  have hto : s.logicTo x b = s.advance.setResultFlag x b false := by simp only [State.logicTo, State.logicRegs, h]; rfl
  rw [hto, State.reg_setResultFlag]
  rfl

theorem State.reg_logicTo_extended {s : State} (h : s.cfg.variant = .extended) (x r : Reg) (b : Byte) :
    (s.logicTo x b).reg r = if r = x then b else s.reg r := by
  have hto : s.logicTo x b = s.advance.setReg x b := by simp only [State.logicTo, State.logicRegs, h]; rfl
  rw [hto, State.reg_setReg]
  rfl

/-- A logic result changes V[x], and VF under ORIGINAL. -/
theorem eq_of_reg_logicTo_ne {s : State} {x r : Reg} {b : Byte} (h : (s.logicTo x b).reg r ≠ s.reg r) :
    r = x ∨ (s.cfg.variant = .original ∧ r = vF) := by
  by_contra hne
  obtain ⟨hx, hvF⟩ := not_or.1 hne
  cases hv : s.cfg.variant with
  | original =>
    rw [State.reg_logicTo_original hv, if_neg (fun hr => hvF ⟨hv, hr⟩), if_neg hx] at h
    exact h rfl
  | extended =>
    rw [State.reg_logicTo_extended hv, if_neg hx] at h
    exact h rfl

/-- The registers after the loop of FX65 (R192). -/
theorem reg_effect_ldVxMem (x r : Reg) (s : State) : ((Instr.ldVxMem x).effect s).reg r =
    if r ≤ x then s.readMem (s.index.toNat + r.val) else s.reg r := by
  have h := State.reg_loadRegs s (regsUpTo x) r
  rw [State.loadRegs_eq_loadedRegs] at h
  simp only [mem_regsUpTo] at h
  exact h

/-- An effect changes only the registers the instruction writes. -/
theorem effect_writesReg {i : Instr} {s : State} {r : Reg} (h : (i.effect s).reg r ≠ s.reg r) :
    i.writesReg s.cfg.variant r := by
  cases i with
  | ldImm x nn => exact eq_of_reg_setReg_ne h
  | addImm x nn => exact eq_of_reg_setReg_ne h
  | ldReg x y => exact eq_of_reg_setReg_ne h
  | rnd x nn => exact eq_of_reg_setReg_ne h
  | ldVxDT x => exact eq_of_reg_setReg_ne h
  | drw x y n => exact eq_of_reg_setReg_ne h
  | orReg x y => exact eq_of_reg_logicTo_ne h
  | andReg x y => exact eq_of_reg_logicTo_ne h
  | xorReg x y => exact eq_of_reg_logicTo_ne h
  | addReg x y => exact eq_of_reg_setResultFlag_ne h
  | sub x y => exact eq_of_reg_setResultFlag_ne h
  | subn x y => exact eq_of_reg_setResultFlag_ne h
  | shr x y => exact eq_of_reg_setResultFlag_ne h
  | shl x y => exact eq_of_reg_setResultFlag_ne h
  | ldVxMem x =>
    change r ≤ x
    by_contra hgt
    rw [reg_effect_ldVxMem, if_neg hgt] at h
    exact h rfl
  | _ => exact absurd rfl h

/-- The key wait writes V[x] only when the latched key is released (R98). -/
theorem awaitRelease_reg {x r : Reg} {k : Key} {s : State} (h : (awaitRelease x k s).reg r ≠ s.reg r) :
    r = x ∧ s.keyDown k = false := by
  unfold awaitRelease at h
  split at h
  · exact absurd rfl h
  · next hup => exact ⟨eq_of_reg_setReg_ne (s := s) h, Bool.not_eq_true _ ▸ hup⟩

/-- Settles O48: an effect changes only its own registers, a fault and an advance none, and the key wait V[x] at its end. -/
theorem registersChangeOnlyByTheirWriters : Obligations.RegistersChangeOnlyByTheirWriters := by
  unfold Obligations.RegistersChangeOnlyByTheirWriters
  constructor
  · intro i s t r hexec hne
    by_cases hready : i.Ready s
    · rw [exec_of_ready hready] at hexec
      cases hexec
      exact effect_writesReg hne
    · obtain ⟨c, -, hfault⟩ := exec_of_not_ready hready
      rw [hfault] at hexec
      cases hexec
      exact absurd rfl hne
  · intro s t r hstep hne
    obtain ⟨-, ⟨hs, -, i, hd, -, rfl⟩ | ⟨-, -, rfl⟩ | ⟨-, cause, op, addr, rfl⟩ | ⟨x, -, rfl⟩ | ⟨x, k, hs, rfl⟩⟩ :=
      step_next_cases hstep
    · exact .inr ⟨hs, i, hd, effect_writesReg hne⟩
    · exact absurd rfl hne
    · exact absurd rfl hne
    · exact absurd rfl hne
    · obtain ⟨rfl, hup⟩ := awaitRelease_reg hne
      exact .inl ⟨k, hs, hup⟩

end Sys2Proof.Machine

namespace Sys2Proof.Machine

/-! ## Fetch and run (R90, R91) -/

/-- In Running, with the opcode in memory, a step runs the instruction it decodes to. -/
theorem step_of_decode {s : State} {i : Instr} (hf : s.fault = none) (hs : s.sub = .running) (ho : s.fetchOk = true)
    (hd : decode s.fetchOp = .ok i) : step s = exec i s := by
  simp only [step, engineStep, fetchDecodeExecute, hf, hs, ho, hd, if_true]

/-- In Running, with an unmatched opcode in memory, a step follows the policy. -/
theorem step_of_unmatched {s : State} {e : DecodeError} (hf : s.fault = none) (hs : s.sub = .running)
    (ho : s.fetchOk = true) (hd : decode s.fetchOp = .error e) : step s = execUnmatched s.fetchOp s := by
  simp only [step, engineStep, fetchDecodeExecute, hf, hs, ho, hd, if_true]

/-- In Running, with the opcode past the memory, a step takes the fetch fault. -/
theorem step_of_fetchFault {s : State} (hf : s.fault = none) (hs : s.sub = .running) (ho : s.fetchOk = false) :
    step s = execFetchFault s := by
  simp only [step, engineStep, fetchDecodeExecute, hf, hs, ho]
  rfl

/-- Two bytes that are an instruction hold an opcode that decodes to it. -/
theorem decode_of_decodeBytes {hi lo : Byte} {i : Instr} {rest : List Byte}
    (h : decodeBytes (hi :: lo :: rest) = .ok (i, rest)) : decode (opcodeOfBytes hi lo) = .ok i := by
  cases hd : decode (opcodeOfBytes hi lo) with
  | ok j =>
    rw [decodeBytes_of_decode rest hd] at h
    cases h
    rfl
  | error e => simp [decodeBytes, hd] at h

/-- Settles O6: the opcode the step fetches is the one of the two bytes at PC. -/
theorem stepRunsTheDecodedInstruction : Obligations.StepRunsTheDecodedInstruction := by
  unfold Obligations.StepRunsTheDecodedInstruction
  exact fun s i hf hs hpc hd => step_of_decode hf hs (decide_eq_true hpc) (decode_of_decodeBytes hd)

theorem storeOpcode_eq (s : State) (op : Opcode) : s.storeOpcode op = { s with mem := (s.storeOpcode op).mem } :=
  State.writeBytes_eq s _ _

/-- An opcode stored at PC is what the fetch reads. -/
theorem fetchOp_storeOpcode {s : State} (op : Opcode) (h : Memory.wf s.cfg.font s.mem = true)
    (hpc : s.pc.toNat + 1 ≤ 4095) : (s.storeOpcode op).fetchOp = op := by
  have hread := fun c => State.readMem_writeBytes s s.pc.toNat c [opcodeHi op, opcodeLo op] h (Nat.succ_le_succ hpc)
  have hsamePc : (s.storeOpcode op).pc = s.pc := by rw [storeOpcode_eq]
  have hhi : (s.storeOpcode op).readMem s.pc.toNat = opcodeHi op := by simp [State.storeOpcode, hread]
  have hlo : (s.storeOpcode op).readMem (s.pc.toNat + 1) = opcodeLo op := by simp [State.storeOpcode, hread]
  rw [State.fetchOp, hsamePc, hhi, hlo, opcodeOfBytes_hi_lo]

/-- A state made ready to fetch has its opcode in memory. -/
theorem readyToFetch_fetchOk (s : State) : s.readyToFetch.pc.toNat + 1 ≤ 4095 := by
  simp only [State.readyToFetch]
  split
  · next h => exact of_decide_eq_true h
  · decide

theorem decode_of_decodeTableWord {w : Nat} {i : Instr} (h : decodeTableWord 16 w = some i) :
    decode (tableOpcode 16 w) = .ok i := by
  cases hd : decode (tableOpcode 16 w) with
  | ok j => simpa [decodeTableWord, decodeBytes, hd] using h
  | error e => simp [decodeTableWord, decodeBytes, hd] at h

/-- Settles O7: the two stored bytes are read back, and `withFetchWord` stores them in a state ready to fetch. -/
theorem storedOpcodeIsFetchedAndRun : Obligations.StoredOpcodeIsFetchedAndRun := by
  unfold Obligations.StoredOpcodeIsFetchedAndRun
  refine ⟨fun s op => fetchOp_storeOpcode op, fun s w i hwf hw => ?_⟩
  have hfetch : (s.withFetchWord 16 w).fetchOp = tableOpcode 16 w :=
    fetchOp_storeOpcode (s := s.readyToFetch) _ hwf (readyToFetch_fetchOk s)
  have hsame := storeOpcode_eq s.readyToFetch (tableOpcode 16 w)
  apply step_of_decode
  · exact congrArg State.fault hsame
  · exact congrArg State.sub hsame
  · exact (congrArg State.fetchOk hsame).trans (decide_eq_true (readyToFetch_fetchOk s))
  · rw [hfetch]
    exact decode_of_decodeTableWord hw

/-- Settles O8: the fetch check fails, and the address is PC + 1 or PC itself. -/
theorem fetchPastMemoryFaults : Obligations.FetchPastMemoryFaults := by
  unfold Obligations.FetchPastMemoryFaults
  intro s hf hs hpc
  have ho : s.fetchOk = false := decide_eq_false (Nat.not_le.2 hpc)
  have haddr : s.fetchAddr = if s.pc.toNat = 4095 then 4096 else s.pc.toNat := by
    unfold State.fetchAddr
    split <;> split <;> omega
  refine ⟨_, step_of_fetchFault hf hs ho, ?_⟩
  rw [FaultTaken, haddr]

/-- Settles O9: the listed opcodes do not decode, and the policy says the rest. -/
theorem unmatchedOpcodeFollowsThePolicy : Obligations.UnmatchedOpcodeFollowsThePolicy := by
  unfold Obligations.UnmatchedOpcodeFollowsThePolicy
  rintro s op hf hs hpc rfl hlisted
  have hstep := step_of_unmatched hf hs (decide_eq_true hpc) ((unmatchedOpcodesAreExactlyTheListed _).2 hlisted)
  constructor
  · intro hp
    refine ⟨s.advance, ?_, State.advance_pc s, frameExcept_setPc s _⟩
    rw [hstep, execUnmatched, hp]
  · intro hp
    refine ⟨_, ?_, rfl⟩
    rw [hstep, execUnmatched, hp, raiseFault_eq]

/-! ## The key wait (R98, R241) -/

/-- The lowest pressed key is found as the first of the sixteen that is down. -/
theorem lowestPressed_eq_some {s : State} {k : Key} (hk : s.keyDown k = true) (hlow : ∀ j, j < k → s.keyDown j = false) :
    s.lowestPressed = some k := by
  rw [State.lowestPressed, List.find?_eq_some_iff_getElem]
  refine ⟨hk, k.val, by simp, by simp, fun j hj => ?_⟩
  have hjk : (⟨j, hj.trans k.isLt⟩ : Key) < k := hj
  simpa using hlow _ hjk

theorem sampleKey_of_up {s : State} (x : Reg) (h : ∀ k, s.keyDown k = false) : s.sampleKey x = .awaitKeyPress x := by
  rw [State.sampleKey, (State.lowestPressed_none s).2 h]

theorem sampleKey_of_lowest {s : State} {k : Key} (x : Reg) (hk : s.keyDown k = true)
    (hlow : ∀ j, j < k → s.keyDown j = false) : s.sampleKey x = .awaitKeyRelease x k := by
  rw [State.sampleKey, lowestPressed_eq_some hk hlow]

/-- Writing SUB leaves every other part of the state. -/
theorem frameExcept_setSub (s : State) (b : SubState) : FrameExcept s (s.setSub b) [.sub] := by
  intro p hp
  cases p with
  | sub => simp at hp
  | _ => rfl

/-- Writing SUB and V[x] leaves every other part of the state. -/
theorem frameExcept_setReg_setSub (s : State) (x : Reg) (b : Byte) (u : SubState) :
    FrameExcept s ((s.setReg x b).setSub u) [.sub, .reg x] := by
  intro p hp
  cases p with
  | sub => simp at hp
  | reg r =>
    by_contra hne
    exact hp (by simp [eq_of_reg_setReg_ne (s := s) hne])
  | _ => rfl

/-- Advancing PC and writing SUB leaves every other part of the state. -/
theorem frameExcept_advance_setSub (s : State) (b : SubState) : FrameExcept s (s.advance.setSub b) [.pc, .sub] := by
  intro p hp
  cases p with
  | pc => simp at hp
  | sub => simp at hp
  | _ => rfl

theorem step_awaitKeyPress {s : State} {x : Reg} (hf : s.fault = none) (hs : s.sub = .awaitKeyPress x) :
    step s = .next (s.setSub (s.sampleKey x)) := by
  simp only [step, engineStep, hf, hs, awaitPress]

theorem step_awaitKeyRelease {s : State} {x : Reg} {k : Key} (hf : s.fault = none) (hs : s.sub = .awaitKeyRelease x k) :
    step s = .next (if s.keyDown k then s else (s.setReg x (BitVec.ofNat 8 k.val)).setSub .running) := by
  simp only [step, engineStep, hf, hs, awaitRelease]

/-- Settles O10: the sample of the keypad while no key is latched, and the test of the latched key. -/
theorem keyWaitSteps : Obligations.KeyWaitSteps := by
  unfold Obligations.KeyWaitSteps
  intro s x hf
  refine ⟨fun hs hup => ?_, fun k hs hk hlow => ?_, fun k hs hk => ?_, fun k hs hk => ?_⟩
  · rw [step_awaitKeyPress hf hs, sampleKey_of_up x hup, ← hs]
    rfl
  · refine ⟨_, step_awaitKeyPress hf hs, ?_, frameExcept_setSub s _⟩
    rw [State.setSub_sub, sampleKey_of_lowest x hk hlow]
  · rw [step_awaitKeyRelease hf hs, if_pos hk]
  · refine ⟨(s.setReg x (BitVec.ofNat 8 k.val)).setSub .running, ?_, ?_, rfl, frameExcept_setReg_setSub s x _ _⟩
    · rw [step_awaitKeyRelease hf hs, hk]
      rfl
    · have hk := k.isLt
      have hreg : ((s.setReg x (BitVec.ofNat 8 k.val)).setSub .running).reg x = BitVec.ofNat 8 k.val :=
        State.reg_setReg_self s x _
      rw [hreg, BitVec.toNat_ofNat]
      omega

/-- Settles O45: FX0A samples the keypad once. -/
theorem waitForKeyEntersTheSubState : Obligations.WaitForKeyEntersTheSubState := by
  unfold Obligations.WaitForKeyEntersTheSubState
  intro x s
  refine ⟨fun hup => ?_, fun k hk hlow => ?_⟩
  · exact ⟨s.advance.setSub (s.sampleKey x), rfl, sampleKey_of_up x hup, rfl, frameExcept_advance_setSub s _⟩
  · exact ⟨s.advance.setSub (s.sampleKey x), rfl, sampleKey_of_lowest x hk hlow, rfl, frameExcept_advance_setSub s _⟩

/-! ## Faults of the instructions (R58, R96, R260) -/

/-- Where its condition fails an instruction takes the fault its tables name. -/
theorem takesFault_of_not_ready {i : Instr} {s : State} {c : Cause} (hc : i.ownFault = some c) (h : ¬ i.Ready s) :
    TakesFault i s c (i.faultAddr s) := by
  obtain ⟨c', hc', hexec⟩ := exec_of_not_ready h
  obtain rfl : c = c' := Option.some.inj (hc.symm.trans hc')
  exact ⟨_, hexec, rfl⟩

/-- Settles O15: each condition fails exactly if the last address passes 4095. -/
theorem dataAccessPastMemoryFaults : Obligations.DataAccessPastMemoryFaults := by
  unfold Obligations.DataAccessPastMemoryFaults
  intro s x y n
  refine ⟨fun h => takesFault_of_not_ready (i := .ldB x) rfl (Nat.not_le.2 h),
    fun h => takesFault_of_not_ready (i := .ldMemVx x) rfl (Nat.not_le.2 h),
    fun h => takesFault_of_not_ready (i := .ldVxMem x) rfl (Nat.not_le.2 h),
    fun hn h => takesFault_of_not_ready (i := .drw x y n) rfl (not_or.2 ⟨?_, Nat.not_le.2 h⟩)⟩
  simp only [State.visibleRows, State.originY]
  omega

/-! ## Control flow (R110, R112, R116) -/

/-- Settles O18: 4XNN is a skip on V[X] ≠ NN. -/
theorem skipIfNotEqualImmediate : Obligations.SkipIfNotEqualImmediate := by
  unfold Obligations.SkipIfNotEqualImmediate
  exact fun x nn s => ⟨toNat_wordXNN 4 x nn, skipEffect_of_exec rfl⟩

/-- A return leaves everything but PC and the depth. -/
theorem frameExcept_pop_setPc (s : State) (a : Addr) : FrameExcept s (s.pop.setPc a) [.pc, .sp] := by
  intro p hp
  cases p with
  | pc => simp at hp
  | sp => simp at hp
  | _ => rfl

/-- A call with room leaves everything but PC, the depth and the entry at the old depth. -/
theorem frameExcept_push_setPc {s : State} (a b : Addr) (h : s.sp < 16) :
    FrameExcept s ((s.push a).setPc b) [.pc, .sp, .stack s.sp] := by
  intro p hp
  cases p with
  | pc => simp at hp
  | sp => simp at hp
  | stack j =>
    have hj : j ≠ s.sp := by simpa using hp
    exact (State.stackEntry_push s a j h).trans (if_neg hj)
  | _ => rfl

/-- Settles O20: 00EE pops, or fails its condition on an empty stack. -/
theorem returnPopsOrUnderflows : Obligations.ReturnPopsOrUnderflows := by
  unfold Obligations.ReturnPopsOrUnderflows
  refine fun s => ⟨fun h => takesFault_of_not_ready (i := .ret) rfl (not_not.2 h), fun h => ?_⟩
  exact ⟨_, exec_of_ready (i := .ret) (Nat.ne_of_gt h), rfl, rfl, frameExcept_pop_setPc s _⟩

/-- Settles O21: 2NNN pushes PC + 2, or fails its condition at the capacity. -/
theorem callPushesOrOverflows : Obligations.CallPushesOrOverflows := by
  unfold Obligations.CallPushesOrOverflows
  refine fun nnn s hcfg => ⟨fun h => takesFault_of_not_ready (i := .call nnn) rfl (Nat.not_lt.2 h.ge), fun h => ?_⟩
  have hroom : s.sp < 16 := h.trans_le (Config.capacity_le hcfg)
  refine ⟨_, exec_of_ready (i := .call nnn) h, toNat_addrOf nnn, ?_, rfl, frameExcept_push_setPc _ _ hroom⟩
  exact (State.stackEntry_push s (s.pc + 2) s.sp hroom).trans (if_pos rfl)

/-- Settles O22: the call leaves depth + 1 and PC + 2 in the entry below, which is the one a return reads. -/
theorem returnComesBackAfterCall : Obligations.ReturnComesBackAfterCall := by
  unfold Obligations.ReturnComesBackAfterCall
  intro nnn s hcfg h
  obtain ⟨t, hcall, -, hentry, hsp, -⟩ := (callPushesOrOverflows nnn s hcfg).2 h
  refine ⟨t, hcall, fun u husp hustk => ?_⟩
  have hdepth : u.sp = s.sp + 1 := husp.trans hsp
  obtain ⟨w, hret, hwpc, hwsp, -⟩ := (returnPopsOrUnderflows u).2 (by omega)
  have hindex : u.sp - 1 = s.sp := by omega
  refine ⟨w, hret, ?_, hwsp.trans hindex⟩
  rw [hwpc, hindex, ← hentry, State.stackEntry, State.stackEntry, hustk]

end Sys2Proof.Machine

namespace Sys2Proof.Machine

/-! ## Logic and arithmetic with a flag (R151 to R159) -/

/-- The register-register word as its selector bits and its operands. -/
theorem toNat_wordXYN_of_eq {w : Nat} (t : BitVec 4) (x y : Reg) (n : BitVec 4) (h : 0x1000 * t.toNat + n.toNat = w) :
    (wordXYN t x y n).toNat = w + 0x100 * x.val + 0x10 * y.val := by
  rw [toNat_wordXYN]
  omega

/-- Advancing PC and writing a result with its flag leaves every other part of the state. -/
theorem frameExcept_advance_setResultFlag (s : State) (x : Reg) (b : Byte) (c : Bool) :
    FrameExcept s (s.advance.setResultFlag x b c) [.pc, .reg x, .reg vF] := by
  intro p hp
  cases p with
  | pc => simp at hp
  | reg r =>
    by_contra hne
    rcases eq_of_reg_setResultFlag_ne (s := s.advance) hne with rfl | rfl <;> simp at hp
  | _ => rfl

/-- A logic instruction's frame under EXTENDED: VF is not changed unless it is V[x]. -/
theorem frameExcept_logicTo_extended {s : State} (h : s.cfg.variant = .extended) (x : Reg) (b : Byte) :
    FrameExcept s (s.logicTo x b) [.pc, .reg x] := by
  intro p hp
  cases p with
  | pc => simp at hp
  | reg r =>
    have hne : r ≠ x := by simpa using hp
    exact (State.reg_logicTo_extended h x r b).trans (if_neg hne)
  | _ => rfl

/-- A logic instruction's frame under ORIGINAL. -/
theorem frameExcept_logicTo_original {s : State} (h : s.cfg.variant = .original) (x : Reg) (b : Byte) :
    FrameExcept s (s.logicTo x b) [.pc, .reg x, .reg vF] := by
  intro p hp
  cases p with
  | pc => simp at hp
  | reg r =>
    obtain ⟨hx, hvF⟩ : r ≠ x ∧ r ≠ vF := by simpa using hp
    exact (State.reg_logicTo_original h x r b).trans ((if_neg hvF).trans (if_neg hx))
  | _ => rfl

/-- An instruction whose effect is a logic result has the effect of R151 under both variants. -/
theorem logicEffect_of_exec {i : Instr} {s : State} {x : Reg} {b : Byte} (h : exec i s = .next (s.logicTo x b)) :
    LogicEffect i s x b := by
  refine ⟨_, h, rfl, fun hv => ⟨?_, fun hx => ?_, frameExcept_logicTo_original hv x b⟩,
    fun hv => ⟨?_, frameExcept_logicTo_extended hv x b⟩⟩
  · exact (State.reg_logicTo_original hv x vF b).trans (if_pos rfl)
  · exact (State.reg_logicTo_original hv x x b).trans ((if_neg hx).trans (if_pos rfl))
  · exact (State.reg_logicTo_extended hv x x b).trans (if_pos rfl)

/-- Settles O25: the three logic instructions write one result each, sampled before any write. -/
theorem logicClearsFlagUnderOriginal : Obligations.LogicClearsFlagUnderOriginal := by
  unfold Obligations.LogicClearsFlagUnderOriginal
  exact fun x y s =>
    ⟨toNat_wordXYN_of_eq 8 x y 1 rfl, logicEffect_of_exec (exec_of_ready (i := .orReg x y) trivial),
     toNat_wordXYN_of_eq 8 x y 2 rfl, logicEffect_of_exec (exec_of_ready (i := .andReg x y) trivial),
     toNat_wordXYN_of_eq 8 x y 3 rfl, logicEffect_of_exec (exec_of_ready (i := .xorReg x y) trivial)⟩

/-- An instruction whose effect is a result and a flag: VF ends with the flag, X = 15 included (R141). -/
theorem flagEffect_of_exec {i : Instr} {s : State} {x : Reg} {b r : Byte} {f : Bool} {c : Prop}
    (h : exec i s = .next (s.advance.setResultFlag x b f)) (hr : b = r) (hf : f = true ↔ c) : FlagEffect i s x r c := by
  have hreg := fun j => State.reg_setResultFlag s.advance x j b f
  refine ⟨_, h, rfl, fun hc => ?_, fun hc => ?_, fun hx => ?_, frameExcept_advance_setResultFlag s x b f⟩
  · rw [hreg, hf.2 hc]
    rfl
  · rw [hreg, Bool.eq_false_iff.2 (mt hf.1 hc)]
    rfl
  · rw [hreg, if_neg hx, if_pos rfl, hr]

/-- Byte arithmetic is arithmetic of naturals modulo 256. -/
theorem byte_add_eq (a b : Byte) : a + b = BitVec.ofNat 8 ((a.toNat + b.toNat) % 256) := by bv_omega

theorem byte_sub_eq (a b : Byte) : a - b = BitVec.ofNat 8 ((a.toNat + 256 - b.toNat) % 256) := by bv_omega

theorem byte_shiftRight_one_eq (a : Byte) : a >>> 1 = BitVec.ofNat 8 (a.toNat / 2) := by bv_omega

theorem byte_shiftLeft_one_eq (a : Byte) : a <<< 1 = BitVec.ofNat 8 (a.toNat * 2 % 256) := by bv_omega

/-- The bits the shifts move out, as numbers (R158, R159). -/
theorem lowBitFlag_iff (a : Byte) : lowBitFlag a = true ↔ a.toNat % 2 = 1 := by
  simp [lowBitFlag, BitVec.getLsbD, Nat.testBit_zero]

theorem highBitFlag_iff (a : Byte) : highBitFlag a = true ↔ a.toNat ≥ 128 := by
  have ha := a.isLt
  simp only [highBitFlag, BitVec.getLsbD, Nat.testBit_eq_decide_div_mod_eq, decide_eq_true_iff]
  omega

/-- Settles O26: the sum modulo 256 and its carry. -/
theorem addSetsCarry : Obligations.AddSetsCarry := by
  unfold Obligations.AddSetsCarry
  exact fun x y s => ⟨toNat_wordXYN_of_eq 8 x y 4 rfl,
    flagEffect_of_exec (i := .addReg x y) rfl (byte_add_eq _ _) decide_eq_true_iff⟩

/-- Settles O27: the two differences modulo 256, each with its not-borrow. -/
theorem subtractSetsNotBorrow : Obligations.SubtractSetsNotBorrow := by
  unfold Obligations.SubtractSetsNotBorrow
  exact fun x y s =>
    ⟨toNat_wordXYN_of_eq 8 x y 5 rfl,
     flagEffect_of_exec (i := .sub x y) rfl (byte_sub_eq _ _) decide_eq_true_iff,
     toNat_wordXYN_of_eq 8 x y 7 rfl,
     flagEffect_of_exec (i := .subn x y) rfl (byte_sub_eq _ _) decide_eq_true_iff⟩

/-- The source of a shift is V[Y] under ORIGINAL and V[X] under EXTENDED (R158). -/
theorem State.shiftSource_eq {s : State} {x y : Reg} {src : Byte} (ho : s.cfg.variant = .original → src = s.reg y)
    (he : s.cfg.variant = .extended → src = s.reg x) : s.shiftSource x y = src := by
  unfold State.shiftSource
  cases hv : s.cfg.variant with
  | original => exact (ho hv).symm
  | extended => exact (he hv).symm

/-- Settles O28: half and double of the source, with the bit moved out. -/
theorem shiftsMoveOneBitOut : Obligations.ShiftsMoveOneBitOut := by
  unfold Obligations.ShiftsMoveOneBitOut
  intro x y s src ho he
  obtain rfl := State.shiftSource_eq (x := x) (y := y) ho he
  exact ⟨toNat_wordXYN_of_eq 8 x y 6 rfl,
    flagEffect_of_exec (i := .shr x y) rfl (byte_shiftRight_one_eq _) (lowBitFlag_iff _),
    toNat_wordXYN_of_eq 8 x y 0xE rfl,
    flagEffect_of_exec (i := .shl x y) rfl (byte_shiftLeft_one_eq _) (highBitFlag_iff _)⟩

/-- Settles O51: under EXTENDED the source of a shift does not read Y. -/
theorem extendedShiftsIgnoreY : Obligations.ExtendedShiftsIgnoreY := by
  unfold Obligations.ExtendedShiftsIgnoreY
  intro x y y' s hv
  have hsource : s.shiftSource x y = s.shiftSource x y' := by simp only [State.shiftSource, hv]
  constructor
  · simp only [exec, execShr, hsource]
  · simp only [exec, execShl, hsource]

/-- Settles O29: one register write of the masked byte after the draw counter has moved on. -/
theorem randomByteIsMasked : Obligations.RandomByteIsMasked := by
  unfold Obligations.RandomByteIsMasked
  refine fun x nn s => ⟨toNat_wordXNN 0xC x nn, rfl, fun r => ⟨State.reg_setReg_self _ x _, rfl, rfl, fun p hp => ?_⟩⟩
  cases p with
  | pc => simp at hp
  | draws => simp at hp
  | reg j =>
    by_contra hne
    exact hp (by simp [eq_of_reg_setReg_ne (s := s.advance.tickDraw) hne])
  | _ => rfl

/-! ## Index register and memory (R182 to R192) -/

/-- Settles O31: the sum that fits 16 bits does not wrap, and one that does not fit fails the condition. -/
theorem addToIndexOrOverflows : Obligations.AddToIndexOrOverflows := by
  unfold Obligations.AddToIndexOrOverflows
  refine fun x s => ⟨fun h => ?_, fun h => takesFault_of_not_ready (i := .addI x) rfl (Nat.not_le.2 h)⟩
  obtain ⟨t, hexec, hindex, hpc, hframe⟩ := indexWrite_of_exec (exec_of_ready (i := .addI x) h)
  refine ⟨t, hexec, hindex.trans ?_, hpc, hframe⟩
  have hb := (s.reg x).isLt
  simp only [wordOf, BitVec.toNat_add, BitVec.toNat_setWidth]
  omega

/-- A state that differs in PC, I and the bytes stored keeps every other part. -/
theorem frameExceptStore_writeList {s : State} {bs : List Byte} {i : Addr}
    (h : Memory.wf s.cfg.font s.mem = true) (ha : s.index.toNat + bs.length ≤ memSize) :
    FrameExceptStore s { s.advance with mem := Memory.writeList s.cfg.font s.mem s.index.toNat bs, index := i }
      [.pc, .index] s.index.toNat bs.length := by
  intro p hp hbytes
  cases p with
  | pc => simp at hp
  | index => simp at hp
  | byte b => exact readMem_of_store_outside h ha rfl rfl (hbytes b rfl)
  | _ => rfl

theorem getElem?_regsUpTo {x j : Reg} (h : j ≤ x) : (regsUpTo x)[j.val]? = some j := by
  have hj : j.val < x.val + 1 := Nat.lt_succ_of_le h
  simp [regsUpTo, hj]

/-- I after a transfer in range: X + 1 further under ORIGINAL, without a wrap (R190, R192). -/
theorem indexAfterTransfer_original {s : State} {x : Reg} (hv : s.cfg.variant = .original)
    (h : s.index.toNat + x.val ≤ 4095) : (s.indexAfterTransfer x).toNat = s.index.toNat + x.val + 1 := by
  have hx := x.isLt
  simp only [State.indexAfterTransfer, hv, BitVec.toNat_add, BitVec.toNat_ofNat]
  omega

theorem indexAfterTransfer_extended {s : State} {x : Reg} (hv : s.cfg.variant = .extended) :
    s.indexAfterTransfer x = s.index := by
  simp only [State.indexAfterTransfer, hv]

/-- After FX55 the byte at I + j is V[j] (R190). -/
theorem readMem_effect_ldMemVx {s : State} {x j : Reg} (hwf : Memory.wf s.cfg.font s.mem = true)
    (h : (Instr.ldMemVx x).Ready s) (hj : j ≤ x) :
    ((Instr.ldMemVx x).effect s).readMem (s.index.toNat + j.val) = s.reg j := by
  rw [readMem_of_store (t := (Instr.ldMemVx x).effect s) hwf (stored_registers_fit h) rfl rfl, if_neg (by omega),
    Nat.add_sub_cancel_left, List.getElem?_map, getElem?_regsUpTo hj]
  rfl

/-- After FX33 the byte at I + k is digit k (R188). -/
theorem readMem_effect_ldB {s : State} {x : Reg} (hwf : Memory.wf s.cfg.font s.mem = true) (h : (Instr.ldB x).Ready s)
    (k : Nat) : ((Instr.ldB x).effect s).readMem (s.index.toNat + k) =
      (bcdDigits (s.reg x))[k]?.getD (s.readMem (s.index.toNat + k)) := by
  rw [readMem_of_store (t := (Instr.ldB x).effect s) hwf (stored_digits_fit h) rfl rfl, if_neg (by omega),
    Nat.add_sub_cancel_left]

/-- Settles O32: the digits fit a byte each and stand at I, I + 1 and I + 2. -/
theorem storeBcdDigits : Obligations.StoreBcdDigits := by
  unfold Obligations.StoreBcdDigits
  intro x s hwf h
  have hready : (Instr.ldB x).Ready s := h
  have hread := readMem_effect_ldB hwf hready
  have hb := (s.reg x).isLt
  refine ⟨_, exec_of_ready hready, ?_, ?_, ?_, rfl, fun p hp hbytes => ?_⟩
  · refine (congrArg BitVec.toNat (hread 0)).trans ?_
    exact (BitVec.toNat_ofNat _ _).trans (by omega)
  · refine (congrArg BitVec.toNat (hread 1)).trans ?_
    exact (BitVec.toNat_ofNat _ _).trans (by omega)
  · refine (congrArg BitVec.toNat (hread 2)).trans ?_
    exact (BitVec.toNat_ofNat _ _).trans (by omega)
  · by_cases hindex : p = .index
    · subst hindex
      rfl
    · refine frameExceptStore_writeList hwf (stored_digits_fit hready) p ?_ hbytes
      simpa [hindex] using hp

/-- Settles O33: byte j of the store is V[j], and every byte outside is as before. -/
theorem storeRegistersUpToX : Obligations.StoreRegistersUpToX := by
  unfold Obligations.StoreRegistersUpToX
  intro x s hwf h
  have hready : (Instr.ldMemVx x).Ready s := h
  have hframe := frameExceptStore_writeList (i := s.indexAfterTransfer x) hwf (stored_registers_fit hready)
  rw [List.length_map, length_regsUpTo] at hframe
  exact ⟨_, exec_of_ready hready, fun j hj => readMem_effect_ldMemVx hwf hready hj,
    fun hv => indexAfterTransfer_original hv h, indexAfterTransfer_extended, rfl, hframe⟩

/-- Settles O34: the loop loads the registers up to X, and nothing but I and PC changes beside. -/
theorem loadRegistersUpToX : Obligations.LoadRegistersUpToX := by
  unfold Obligations.LoadRegistersUpToX
  intro x s h
  have hready : (Instr.ldVxMem x).Ready s := h
  refine ⟨_, exec_of_ready hready, fun j hj => (reg_effect_ldVxMem x j s).trans (if_pos hj),
    fun hv => indexAfterTransfer_original hv h, indexAfterTransfer_extended, rfl, fun p hp hregs => ?_⟩
  cases p with
  | pc => simp at hp
  | index => simp at hp
  | reg r => exact (reg_effect_ldVxMem x r s).trans (if_neg (not_le.2 (hregs r rfl)))
  | _ => rfl

/-- Settles O35: the byte loaded into V[j] is the byte stored from V[j]. -/
theorem loadAfterStoreRestoresRegisters : Obligations.LoadAfterStoreRestoresRegisters := by
  unfold Obligations.LoadAfterStoreRestoresRegisters
  intro x s t hwf h hexec u hmem hcfg hindex
  obtain ⟨t', hstore, hbytes, -⟩ := storeRegistersUpToX x s hwf h
  obtain rfl : t' = t := Host.Outcome.next.inj (hstore.symm.trans hexec)
  obtain ⟨w, hload, hregs, -⟩ := loadRegistersUpToX x u (by rw [hindex]; exact h)
  refine ⟨w, hload, fun j hj => ?_⟩
  rw [hregs j hj, hindex, State.readMem_congr hmem hcfg, hbytes j hj]

/-- A listed byte differs from what its address reads as unlisted, and addresses before the first one read as unlisted. -/
theorem Memory.head_eq_of_read_eq {font : Vector Byte 80} {k k' : Nat} {b b' : Byte} {m m' : Memory}
    (hwf : Memory.wf font ((k, b) :: m) = true) (hwf' : Memory.wf font ((k', b') :: m') = true)
    (h : Memory.read font ((k, b) :: m) k = Memory.read font ((k', b') :: m') k) : k' ≤ k := by
  obtain ⟨-, hb, -, -⟩ := Memory.wf_cons.1 hwf
  obtain ⟨-, -, habove, -⟩ := Memory.wf_cons.1 hwf'
  by_contra hlt
  have hunlisted : Memory.above k ((k', b') :: m') := by
    intro c hc
    rcases List.mem_cons.1 hc with rfl | hc
    · exact Nat.not_le.1 hlt
    · exact (Nat.not_le.1 hlt).trans (habove c hc)
  rw [Memory.read_of_above hunlisted, Memory.read, if_pos rfl] at h
  exact hb h

/-- Settles O36, by induction on both lists: the first listed address is the first one that does not read as unlisted. -/
theorem canonicalMemoryIsUnique : Obligations.CanonicalMemoryIsUnique := by
  unfold Obligations.CanonicalMemoryIsUnique
  intro font m
  induction m with
  | nil =>
    intro m' _ hwf' h
    cases m' with
    | nil => rfl
    | cons e m' =>
      obtain ⟨-, hb, -, -⟩ := Memory.wf_cons.1 hwf'
      have hk := h e.1
      rw [Memory.read, Memory.read, if_pos rfl] at hk
      exact absurd hk.symm hb
  | cons e m ih =>
    intro m' hwf hwf' h
    obtain ⟨k, b⟩ := e
    cases m' with
    | nil =>
      obtain ⟨-, hb, -, -⟩ := Memory.wf_cons.1 hwf
      have hk := h k
      rw [Memory.read, Memory.read, if_pos rfl] at hk
      exact absurd hk hb
    | cons e' m' =>
      obtain ⟨k', b'⟩ := e'
      obtain rfl : k = k' := Nat.le_antisymm (Memory.head_eq_of_read_eq hwf' hwf (h k').symm)
        (Memory.head_eq_of_read_eq hwf hwf' (h k))
      obtain ⟨-, -, habove, hm⟩ := Memory.wf_cons.1 hwf
      obtain ⟨-, -, habove', hm'⟩ := Memory.wf_cons.1 hwf'
      have hb : b = b' := by simpa [Memory.read] using h k
      have htail : ∀ a, Memory.read font m a = Memory.read font m' a := by
        intro a
        by_cases ha : k = a
        · subst ha
          rw [Memory.read_of_above habove, Memory.read_of_above habove']
        · simpa [Memory.read, ha] using h a
      rw [hb, ih m' hm hm' htail]

/-! ## Keypad and timers (R230 to R238) -/

/-- An instruction whose effect is a skip is a skip on its condition. -/
theorem skipEffect_of_skipTo {i : Instr} {s : State} {b : Bool} {c : Prop} (h : exec i s = .next (s.skipTo b))
    (hb : b = true ↔ c) : SkipEffect i s c := by
  refine ⟨_, h, fun hc => ?_, fun hc => ?_, frameExcept_setPc s _⟩
  · rw [hb.2 hc]
    rfl
  · rw [Bool.eq_false_iff.2 (mt hb.1 hc)]
    rfl

/-- Settles O43: for a register that names a key both skips read that key, and for any other their condition fails. -/
theorem keySkipsOrIndexFault : Obligations.KeySkipsOrIndexFault := by
  unfold Obligations.KeySkipsOrIndexFault
  refine fun x s => ⟨fun k hk => ?_, fun h => ?_⟩
  · have hlt : (s.reg x).toNat < 16 := hk ▸ k.isLt
    have hkey : s.keyOf x = k := Fin.ext ((Nat.mod_eq_of_lt hlt).trans hk)
    have hskp : exec (.skp x) s = .next (s.skipTo (s.keyDown (s.keyOf x))) := exec_of_ready hlt
    have hsknp : exec (.sknp x) s = .next (s.skipTo (!s.keyDown (s.keyOf x))) := exec_of_ready hlt
    rw [hkey] at hskp hsknp
    exact ⟨skipEffect_of_skipTo hskp Iff.rfl, skipEffect_of_skipTo hsknp (by simp)⟩
  · exact ⟨takesFault_of_not_ready (i := .skp x) rfl (Nat.not_lt.2 h),
      takesFault_of_not_ready (i := .sknp x) rfl (Nat.not_lt.2 h)⟩

/-- Settles O44: one register write and two timer writes. -/
theorem timerMoves : Obligations.TimerMoves := by
  unfold Obligations.TimerMoves
  refine fun x s => ⟨writesOnly_of_exec rfl, ⟨_, rfl, rfl, rfl, fun p hp => ?_⟩, ⟨_, rfl, rfl, rfl, fun p hp => ?_⟩⟩
  · cases p with
    | pc => simp at hp
    | dt => simp at hp
    | _ => rfl
  · cases p with
    | pc => simp at hp
    | st => simp at hp
    | _ => rfl

end Sys2Proof.Machine

namespace Sys2Proof.Machine

/-! ## A draw as a mask of pixels (R215)

A draw toggles each bit of the sprite in turn.  No two bits fall on one cell, so the whole draw toggles a mask of cells, and each bit
meets the cell as it was before the draw. -/

/-- A lit cell of the display meets a cell of the mask. -/
def Meets (d : Display) (mask : Nat → Nat → Bool) : Prop :=
  ∃ py px, py < 32 ∧ px < 64 ∧ Display.pixel d py px = true ∧ mask py px = true

/-- From `d` to `e` the cells of the mask are toggled, and the collision is raised if one of them was lit. -/
structure Toggled (d e : DrawState) (mask : Nat → Nat → Bool) : Prop where
  pixel : ∀ py px, py < 32 → px < 64 → Display.pixel e.disp py px = (Display.pixel d.disp py px ^^ mask py px)
  collision : e.collision = true ↔ d.collision = true ∨ Meets d.disp mask

/-- The mask does not matter off the display. -/
theorem Toggled.congr {d e : DrawState} {mask mask' : Nat → Nat → Bool} (h : Toggled d e mask)
    (heq : ∀ py px, py < 32 → px < 64 → mask py px = mask' py px) : Toggled d e mask' := by
  have hmeets : Meets d.disp mask ↔ Meets d.disp mask' := by
    constructor
    · rintro ⟨py, px, hy, hx, hlit, hm⟩
      exact ⟨py, px, hy, hx, hlit, heq py px hy hx ▸ hm⟩
    · rintro ⟨py, px, hy, hx, hlit, hm⟩
      exact ⟨py, px, hy, hx, hlit, (heq py px hy hx).symm ▸ hm⟩
  exact ⟨fun py px hy hx => heq py px hy hx ▸ h.pixel py px hy hx, h.collision.trans (or_congr_right hmeets)⟩

/-- No bit, no change. -/
theorem Toggled.refl (d : DrawState) : Toggled d d fun _ _ => false :=
  ⟨fun _ _ _ _ => (Bool.xor_false _).symm, by simp [Meets]⟩

/-- Two masks without a common cell toggle one after the other as their union. -/
theorem Toggled.trans {d e f : DrawState} {m m' : Nat → Nat → Bool} (h : Toggled d e m) (h' : Toggled e f m')
    (hdisjoint : ∀ py px, m py px = true → m' py px = false) : Toggled d f fun py px => m py px || m' py px := by
  have hsame : ∀ py px, py < 32 → px < 64 → m' py px = true → Display.pixel e.disp py px = Display.pixel d.disp py px := by
    intro py px hy hx hm'
    have hm : m py px = false := by
      by_contra hm
      simp [hdisjoint py px (by simpa using hm)] at hm'
    rw [h.pixel py px hy hx, hm, Bool.xor_false]
  have hmeets : Meets e.disp m' ↔ Meets d.disp m' := by
    constructor
    · rintro ⟨py, px, hy, hx, hlit, hm⟩
      exact ⟨py, px, hy, hx, hsame py px hy hx hm ▸ hlit, hm⟩
    · rintro ⟨py, px, hy, hx, hlit, hm⟩
      exact ⟨py, px, hy, hx, (hsame py px hy hx hm).symm ▸ hlit, hm⟩
  constructor
  · intro py px hy hx
    rw [h'.pixel py px hy hx, h.pixel py px hy hx, Bool.xor_assoc]
    cases hm : m py px with
    | false => rw [Bool.false_xor, Bool.false_or]
    | true => rw [hdisjoint py px hm, Bool.xor_false, Bool.or_false]
  · have hunion : Meets d.disp (fun py px => m py px || m' py px) ↔ Meets d.disp m ∨ Meets d.disp m' := by
      simp only [Meets, Bool.or_eq_true, and_or_left, exists_or]
    rw [h'.collision, h.collision, hmeets, hunion, or_assoc]

/-- The cells of bits 0 to n - 1 (from the left) of a sprite row. -/
def rowMask (y ox : Nat) (b : Byte) (n : Nat) (py px : Nat) : Bool :=
  decide (py = y ∧ ox ≤ px ∧ px < ox + n) && b.getLsbD (7 - (px - ox))

/-- The cell of bit c of a sprite row. -/
def bitMask (y ox : Nat) (b : Byte) (c : Nat) (py px : Nat) : Bool :=
  decide (py = y ∧ px = ox + c) && b.getLsbD (7 - c)

theorem drawBit_toggled {y ox c : Nat} (hy : y < 32) (b : Byte) (d : DrawState) :
    Toggled d (drawBit y ox b d c) (bitMask y ox b c) := by
  unfold drawBit
  split
  · next h =>
    obtain ⟨hx, hbit⟩ := h
    constructor
    · intro py px _ _
      rw [Display.pixel_setPixel _ _ _ _ _ _ hy (by omega)]
      by_cases hcell : py = y ∧ px = ox + c
      · obtain ⟨rfl, rfl⟩ := hcell
        simp [bitMask, hbit]
      · simp [bitMask, hcell]
    · have hmeets : Meets d.disp (bitMask y ox b c) ↔ Display.pixel d.disp y (ox + c) = true := by
        constructor
        · rintro ⟨py, px, -, -, hlit, hm⟩
          obtain ⟨⟨rfl, rfl⟩, -⟩ : (py = y ∧ px = ox + c) ∧ b.getLsbD (7 - c) = true := by simpa [bitMask] using hm
          exact hlit
        · exact fun hlit => ⟨y, ox + c, hy, by omega, hlit, by simp [bitMask, hbit]⟩
      rw [hmeets, Bool.or_eq_true]
  · next h =>
    refine (Toggled.refl d).congr fun py px _ hx => ?_
    by_contra hm
    obtain ⟨-, rfl, hbit⟩ : py = y ∧ px = ox + c ∧ b.getLsbD (7 - c) = true := by simpa [bitMask] using hm
    exact h ⟨by omega, hbit⟩

/-- The first n bits of a row, by induction on n. -/
theorem drawBits_toggled {y ox : Nat} (hy : y < 32) (b : Byte) (d : DrawState) (n : Nat) :
    Toggled d ((List.range n).foldl (drawBit y ox b) d) (rowMask y ox b n) := by
  induction n with
  | zero =>
    refine (Toggled.refl d).congr fun py px _ _ => ?_
    have hempty : ¬ (ox ≤ px ∧ px < ox + 0) := by omega
    simp only [rowMask, hempty, and_false, decide_false, Bool.false_and]
  | succ n ih =>
    rw [List.range_succ, List.foldl_append]
    refine (ih.trans (drawBit_toggled hy b _) fun py px hm => ?_).congr fun py px _ _ => ?_
    · have hpx : px < ox + n := by
        simp only [rowMask, Bool.and_eq_true, decide_eq_true_iff] at hm
        omega
      have hcell : ¬ (py = y ∧ px = ox + n) := by omega
      simp [bitMask, hcell]
    · by_cases hlast : px = ox + n
      · subst hlast
        simp [rowMask, bitMask]
      · have hiff : (py = y ∧ ox ≤ px ∧ px < ox + (n + 1)) ↔ (py = y ∧ ox ≤ px ∧ px < ox + n) := by omega
        simp [rowMask, bitMask, hlast, hiff]

/-- The cells of a sprite whose first row is y. -/
def spriteMask (y ox : Nat) (bs : List Byte) (py px : Nat) : Bool :=
  decide (y ≤ py ∧ ox ≤ px ∧ px < ox + 8) && (bs[py - y]?.getD 0).getLsbD (7 - (px - ox))

/-- The rows of a sprite, by induction on the rows. -/
theorem drawRows_toggled {y ox : Nat} (bs : List Byte) (hy : y + bs.length ≤ 32) (d : DrawState) :
    Toggled d (drawRows y ox d bs) (spriteMask y ox bs) := by
  induction bs generalizing y d with
  | nil =>
    refine (Toggled.refl d).congr fun py px _ _ => ?_
    simp [spriteMask]
  | cons b bs ih =>
    rw [List.length_cons] at hy
    have hrow : Toggled d (drawRow y ox b d) (rowMask y ox b 8) := drawBits_toggled (by omega) b d 8
    refine (hrow.trans (ih (y := y + 1) (by omega) _) fun py px hm => ?_).congr fun py px _ _ => ?_
    · have hpy : py = y := by
        simp only [rowMask, Bool.and_eq_true, decide_eq_true_iff] at hm
        omega
      have hlow : ¬ y + 1 ≤ py := by omega
      simp only [spriteMask, hlow, false_and, decide_false, Bool.false_and]
    · rcases Nat.lt_trichotomy py y with hpy | rfl | hpy
      · have h1 : ¬ py = y := by omega
        have h2 : ¬ y + 1 ≤ py := by omega
        have h3 : ¬ y ≤ py := by omega
        simp [rowMask, spriteMask, h1, h2, h3]
      · simp [rowMask, spriteMask]
      · obtain ⟨j, rfl⟩ : ∃ j, py = y + 1 + j := ⟨py - (y + 1), by omega⟩
        have h1 : ¬ y + 1 + j = y := by omega
        have h2 : y ≤ y + 1 + j := by omega
        have h3 : y + 1 + j - y = j + 1 := by omega
        simp [rowMask, spriteMask, h1, h2, h3]

/-! ## The draw instruction -/

/-- On the display the sprite bytes that are read give the sprite bits of the closed form: clipped rows lie below the display. -/
theorem spriteMask_eq_spriteBit (s : State) (x y : Reg) (n : Fin 16) {py px : Nat} (hy : py < 32) :
    spriteMask (s.originY y) (s.originX x) (s.spriteBytes (s.visibleRows y n)) py px =
      s.spriteBit (s.originY y) (s.originX x) n.val py px := by
  by_cases hrow : s.originY y ≤ py ∧ py < s.originY y + n.val
  · have hread : py - s.originY y < s.visibleRows y n := by
      simp only [State.visibleRows]
      omega
    simp [spriteMask, State.spriteBit, State.spriteBytes, hrow, hread, State.dataAddr]
  · by_cases habove : s.originY y ≤ py
    · have hnone : s.visibleRows y n ≤ py - s.originY y := by
        simp only [State.visibleRows]
        omega
      have hpast : ¬ py < s.originY y + n.val := fun h => hrow ⟨habove, h⟩
      simp [spriteMask, State.spriteBit, State.spriteBytes, hnone, hpast]
    · simp [spriteMask, State.spriteBit, habove]

/-- The draw toggles the sprite bits of the closed form. -/
theorem drawn_toggled (s : State) (x y : Reg) (n : Fin 16) : Toggled ⟨s.disp, false⟩ (s.drawn x y n)
    (s.spriteBit ((s.reg y).toNat % 32) ((s.reg x).toNat % 64) n.val) := by
  have hfits : s.originY y + (s.spriteBytes (s.visibleRows y n)).length ≤ 32 := by
    have horigin : s.originY y < 32 := Nat.mod_lt _ (by decide)
    rw [State.spriteBytes, List.length_map, List.length_range, State.visibleRows]
    omega
  exact (drawRows_toggled _ hfits _).congr fun py px hy _ => spriteMask_eq_spriteBit s x y n hy

theorem drawn_collision_iff (s : State) (x y : Reg) (n : Fin 16) : (s.drawn x y n).collision = true ↔
    Meets s.disp (s.spriteBit ((s.reg y).toNat % 32) ((s.reg x).toNat % 64) n.val) := by
  rw [(drawn_toggled s x y n).collision]
  simp

/-- VF after a draw is the collision (R215). -/
theorem reg_vF_drawEffect (s : State) (x y : Reg) (n : Fin 16) :
    (drawEffect x y n s).reg vF = flagByte (s.drawn x y n).collision :=
  State.reg_setReg_self _ vF _

/-- A draw leaves every part that is not a pixel, but for PC, REDRAW and VF. -/
theorem frameExceptDisplay_drawEffect (s : State) (x y : Reg) (n : Fin 16) :
    FrameExceptDisplay s (drawEffect x y n s) [.pc, .redraw, .reg vF] := by
  intro p hp hpixel
  cases p with
  | pc => simp at hp
  | redraw => simp at hp
  | pixel py px => exact absurd rfl (hpixel py px)
  | reg r =>
    have hne : r ≠ vF := by simpa using hp
    exact (State.reg_setReg _ vF r _).trans (if_neg hne)
  | _ => rfl

/-- Settles O39: the draw toggles the mask of the closed form, and VF is whether a lit cell met it. -/
theorem drawIsXorWithCollision : Obligations.DrawIsXorWithCollision := by
  unfold Obligations.DrawIsXorWithCollision
  intro x y n s h
  refine ⟨_, exec_of_ready (i := .drw x y n) h, (drawn_toggled s x y n).pixel, fun hmeet => ?_, fun hmiss => ?_, rfl, rfl,
    frameExceptDisplay_drawEffect s x y n⟩
  · exact (reg_vF_drawEffect s x y n).trans (congrArg flagByte ((drawn_collision_iff s x y n).2 hmeet))
  · have hno : (s.drawn x y n).collision = false := by
      rw [Bool.eq_false_iff, Ne, drawn_collision_iff]
      rintro ⟨py, px, hy, hx, hlit, hm⟩
      exact absurd hm (Bool.eq_false_iff.1 (hmiss py px hy hx hlit))
    exact (reg_vF_drawEffect s x y n).trans (congrArg flagByte hno)

/-- An instruction that ends without a fault had its effect. -/
theorem ready_of_exec {i : Instr} {s t : State} (hexec : exec i s = .next t) (ht : t.fault = none) :
    i.Ready s ∧ t = i.effect s := by
  by_cases hready : i.Ready s
  · exact ⟨hready, Host.Outcome.next.inj (hexec.symm.trans (exec_of_ready hready))⟩
  · obtain ⟨c, -, hfault⟩ := exec_of_not_ready hready
    rw [hfault] at hexec
    cases hexec
    cases ht

/-- Settles O40: with both origin registers kept, the second draw toggles the same mask as the first. -/
theorem drawTwiceRestoresTheDisplay : Obligations.DrawTwiceRestoresTheDisplay := by
  unfold Obligations.DrawTwiceRestoresTheDisplay
  intro x y n s t u hx hy _ hfirst ht hsecond
  obtain ⟨hready, rfl⟩ := ready_of_exec hfirst ht
  have hframe := frameExceptDisplay_drawEffect s x y n
  have hregx : (drawEffect x y n s).reg x = s.reg x := hframe (.reg x) (by simp [hx]) (by simp)
  have hregy : (drawEffect x y n s).reg y = s.reg y := hframe (.reg y) (by simp [hy]) (by simp)
  have hready' : (Instr.drw x y n).Ready (drawEffect x y n s) := by
    have hrows : (drawEffect x y n s).visibleRows y n = s.visibleRows y n := by
      simp only [State.visibleRows, State.originY, hregy]
    rw [Instr.Ready, hrows]
    exact hready
  obtain rfl : u = drawEffect x y n (drawEffect x y n s) :=
    Host.Outcome.next.inj (hsecond.symm.trans (exec_of_ready hready'))
  have hmask := drawn_toggled (drawEffect x y n s) x y n
  have hbits : (drawEffect x y n s).spriteBit = s.spriteBit := rfl
  rw [hregx, hregy, hbits] at hmask
  have hfirstMask := drawn_toggled s x y n
  constructor
  · apply Display.ext_pixel
    intro py px
    by_cases hin : py < 32 ∧ px < 64
    · obtain ⟨hpy, hpx⟩ := hin
      refine (hmask.pixel py px hpy hpx).trans ?_
      refine (congrArg (· ^^ _) (hfirstMask.pixel py px hpy hpx)).trans ?_
      rw [Bool.xor_assoc, Bool.xor_self, Bool.xor_false]
    · simp only [Display.pixel, dif_neg hin]
  · rintro ⟨py, px, hpy, hpx, hunlit, hbit⟩
    have hlit : Display.pixel (drawEffect x y n s).disp py px = true := by
      refine (hfirstMask.pixel py px hpy hpx).trans ?_
      rw [hunlit, hbit]
      rfl
    have hcollides := hmask.collision.2 (.inr ⟨py, px, hpy, hpx, hlit, hbit⟩)
    exact (reg_vF_drawEffect _ x y n).trans (congrArg flagByte hcollides)

end Sys2Proof.Machine

namespace Sys2Proof.Machine

/-! ## Outcomes of two runs compared (R3, R29, R30) -/

/-- Two runs of an instruction compare as their effects and their faults do. -/
theorem mapNext_exec_congr {i : Instr} {s t : State} {f g : State → State} (hready : i.Ready t ↔ i.Ready s)
    (heffect : f (i.effect t) = g (i.effect s))
    (hfault : ∀ c, f { t with fault := some ⟨c, t.pc, some (encode i), i.faultAddr t⟩ } =
      g { s with fault := some ⟨c, s.pc, some (encode i), i.faultAddr s⟩ }) :
    Result.mapNext f (exec i t) = Result.mapNext g (exec i s) := by
  by_cases h : i.Ready s
  · rw [exec_of_ready h, exec_of_ready (hready.2 h)]
    exact congrArg Host.Outcome.next heffect
  · obtain ⟨c, hc, hs⟩ := exec_of_not_ready h
    obtain ⟨c', hc', ht⟩ := exec_of_not_ready (mt hready.1 h)
    obtain rfl : c = c' := Option.some.inj (hc.symm.trans hc')
    rw [hs, ht]
    exact congrArg Host.Outcome.next (hfault c)

/-! ## Outputs are never read back (R29, R30, R32, R36) -/

/-- ST, REDRAW and TONE replaced. -/
def State.withOutputs (s : State) (st : Byte) (redraw tone : Bool) : State :=
  { s with st := st, redraw := redraw, tone := tone }

/-- The display replaced, REDRAW as it was. -/
def State.withDisp (s : State) (d : Display) : State := { s with disp := d }

/-- The variant replaced. -/
def State.withVariant (s : State) (v : Variant) : State := { s with cfg := { s.cfg with variant := v } }

/-- No condition and no fault address reads ST, REDRAW, TONE, the display or the variant. -/
theorem ready_withOutputs (i : Instr) (s : State) (b : Byte) (r q : Bool) : i.Ready (s.withOutputs b r q) ↔ i.Ready s := by
  cases i <;> exact Iff.rfl

theorem faultAddr_withOutputs (i : Instr) (s : State) (b : Byte) (r q : Bool) :
    i.faultAddr (s.withOutputs b r q) = i.faultAddr s := by
  cases i <;> rfl

theorem ready_withDisp (i : Instr) (s : State) (d : Display) : i.Ready (s.withDisp d) ↔ i.Ready s := by
  cases i <;> exact Iff.rfl

theorem faultAddr_withDisp (i : Instr) (s : State) (d : Display) : i.faultAddr (s.withDisp d) = i.faultAddr s := by
  cases i <;> rfl

theorem ready_withVariant (i : Instr) (s : State) (v : Variant) : i.Ready (s.withVariant v) ↔ i.Ready s := by
  cases i <;> exact Iff.rfl

theorem faultAddr_withVariant (i : Instr) (s : State) (v : Variant) : i.faultAddr (s.withVariant v) = i.faultAddr s := by
  cases i <;> rfl

/-- No effect reads ST, REDRAW or TONE. -/
theorem effect_withOutputs (i : Instr) (s : State) (b : Byte) (r q : Bool) :
    (i.effect (s.withOutputs b r q)).withOutputs 0 false false = (i.effect s).withOutputs 0 false false := by
  cases i <;> rfl

/-- No effect but that of DXYN reads the display. -/
theorem effect_withDisp {i : Instr} (h : ∀ x y n, i ≠ .drw x y n) (s : State) (d : Display) :
    (i.effect (s.withDisp d)).withDisp Display.blank = (i.effect s).withDisp Display.blank := by
  cases i with
  | drw x y n => exact absurd rfl (h x y n)
  | _ => rfl

/-- No effect of an instruction without a quirk reads the variant. -/
theorem effect_withVariant {i : Instr} (h : i.hasQuirk = false) (s : State) (v : Variant) :
    i.effect (s.withVariant v) = (i.effect s).withVariant v := by
  cases i with
  | orReg x y => cases h
  | andReg x y => cases h
  | xorReg x y => cases h
  | shr x y => cases h
  | shl x y => cases h
  | ldMemVx x => cases h
  | ldVxMem x => cases h
  | _ => rfl

/-- Settles O42: conditions, fault addresses and effects do not read the outputs, and only DXYN's effect reads the display. -/
theorem outputsAreNeverReadBack : Obligations.OutputsAreNeverReadBack := by
  unfold Obligations.OutputsAreNeverReadBack
  refine fun i s b r q d => ⟨?_, fun h => ?_⟩
  · refine mapNext_exec_congr (ready_withOutputs i s b r q) (effect_withOutputs i s b r q) fun c => ?_
    rw [← faultAddr_withOutputs i s b r q]
    rfl
  · refine mapNext_exec_congr (ready_withDisp i s d) (effect_withDisp h s d) fun c => ?_
    rw [← faultAddr_withDisp i s d]
    rfl

theorem Result.mapNext_id (r : Result) : Result.mapNext id r = r := by
  cases r <;> rfl

/-- Settles O50: conditions and fault addresses do not read the variant, and of the effects only the quirks do. -/
theorem variantChangesOnlyTheQuirks : Obligations.VariantChangesOnlyTheQuirks := by
  unfold Obligations.VariantChangesOnlyTheQuirks
  intro i s v h
  rw [← Result.mapNext_id (exec i _)]
  refine mapNext_exec_congr (ready_withVariant i s v) (effect_withVariant h s v) fun c => ?_
  rw [← faultAddr_withVariant i s v]
  rfl

/-! ## The timer update (R280) -/

theorem toNat_countDown (b : Byte) : (countDown b).toNat = b.toNat - 1 := by
  unfold countDown
  split
  · next h =>
    subst h
    rfl
  · next h => bv_omega

theorem timerUpdate_of_fault {s : State} {r : FaultRecord} (h : s.fault = some r) : s.timerUpdate = s := by
  simp only [State.timerUpdate, h]

theorem timerUpdate_of_none {s : State} (h : s.fault = none) : s.timerUpdate =
    { s with dt := countDown s.dt, tone := decide (s.st ≠ 0), st := countDown s.st } := by
  simp only [State.timerUpdate, h]

/-- Settles O46: nothing while a fault is held, else two counters and TONE. -/
theorem timerUpdateCountsDownAndClamps : Obligations.TimerUpdateCountsDownAndClamps := by
  unfold Obligations.TimerUpdateCountsDownAndClamps
  refine fun s => ⟨fun h => ?_, fun h => ?_⟩
  · obtain ⟨r, hr⟩ := Option.ne_none_iff_exists'.1 h
    exact timerUpdate_of_fault hr
  · rw [timerUpdate_of_none h]
    refine ⟨toNat_countDown s.dt, toNat_countDown s.st, ?_, fun p hp => ?_⟩
    · simp only [decide_eq_true_iff, Nat.pos_iff_ne_zero]
      exact not_congr (BitVec.toNat_inj (y := 0)).symm
    · cases p with
      | dt => simp at hp
      | st => simp at hp
      | tone => simp at hp
      | _ => rfl

/-- Settles O11: the step stops, the timer update and every host action but a load leave FAULT. -/
theorem haltedMachineStaysHalted : Obligations.HaltedMachineStaysHalted := by
  unfold Obligations.HaltedMachineStaysHalted
  refine fun s r h => ⟨step_of_fault h, timerUpdate_of_fault h, fun a ha => ?_⟩
  cases a with
  | load v src => exact absurd rfl (ha v src)
  | timerUpdate => exact (congrArg State.fault (timerUpdate_of_fault h)).trans h
  | _ => exact h

/-! ## The frame tick (R285) -/

/-- One more step of a quota: either the step is taken first, or no step is taken at all. -/
theorem runQuota_succ (s : State) : (∃ t, step s = .next t ∧ ∀ k, runQuota (k + 1) s = runQuota k t) ∨
    ∀ k, runQuota k s = s := by
  cases hf : s.fault with
  | some r =>
    refine .inr fun k => ?_
    cases k with
    | zero => rfl
    | succ k => simp only [runQuota, hf]
  | none =>
    obtain ⟨t, ht⟩ := step_next hf
    exact .inl ⟨t, ht, fun k => by simp only [runQuota, hf, ht]⟩

/-- What every step keeps, a quota keeps. -/
theorem runQuota_induction {P : State → Prop} (hstep : ∀ s t, P s → step s = .next t → P t) (k : Nat) {s : State}
    (hs : P s) : P (runQuota k s) := by
  induction k generalizing s with
  | zero => exact hs
  | succ k ih =>
    rcases runQuota_succ s with ⟨t, ht, hrun⟩ | hrun
    · rw [hrun]
      exact ih (hstep s t hs ht)
    · rw [hrun]
      exact hs

/-- A quota in which no FX15 runs leaves DT. -/
theorem runQuota_dt (n : Nat) {s : State} (h : ∀ k x, k < n → (runQuota k s).sub = .running →
    decode (runQuota k s).fetchOp ≠ .ok (.ldDTVx x)) : (runQuota n s).dt = s.dt := by
  induction n generalizing s with
  | zero => rfl
  | succ n ih =>
    rcases runQuota_succ s with ⟨t, ht, hrun⟩ | hrun
    · have hdt : t.dt = s.dt := by
        by_contra hne
        obtain ⟨-, -, -, hwriter, -⟩ := stepLeavesHostStateAlone s t ht
        obtain ⟨hs, x, hd⟩ := hwriter hne
        exact h 0 x (Nat.succ_pos n) hs hd
      rw [hrun, ih, hdt]
      intro k x hk
      rw [← hrun k]
      exact h (k + 1) x (Nat.succ_lt_succ hk)
    · rw [hrun]

/-- Keypad writes change the keypad latch alone. -/
theorem keyWrites_eq (s : State) (ws : List (Key × Bool)) : s.keyWrites ws = { s with key := (s.keyWrites ws).key } := by
  induction ws generalizing s with
  | nil => rfl
  | cons w ws ih => exact ih (s.keyWrite w.1 w.2)

/-- The exchange leaves the timers and the configuration: it is a render and keypad writes. -/
theorem exchange_dt (s : State) (e : Exchange) : (s.exchange e).dt = s.dt := by
  rw [State.exchange, keyWrites_eq]
  cases e.render <;> rfl

theorem exchange_cfg (s : State) (e : Exchange) : (s.exchange e).cfg = s.cfg := by
  rw [State.exchange, keyWrites_eq]
  cases e.render <;> rfl

/-- Settles O47: the quota leaves DT, the timer update lowers it, the exchange leaves it. -/
theorem frameTickLowersDelayTimerOnce : Obligations.FrameTickLowersDelayTimerOnce := by
  unfold Obligations.FrameTickLowersDelayTimerOnce
  intro s e hno hf
  calc (s.frameTick e).1.dt.toNat
    _ = (runQuota s.cfg.ipf s).timerUpdate.dt.toNat := congrArg BitVec.toNat (exchange_dt _ e)
    _ = (runQuota s.cfg.ipf s).dt.toNat - 1 := by rw [timerUpdate_of_none hf, toNat_countDown]
    _ = s.dt.toNat - 1 := by rw [runQuota_dt _ hno]

theorem timerUpdate_cfg (s : State) : s.timerUpdate.cfg = s.cfg := by
  unfold State.timerUpdate
  cases s.fault <;> rfl

theorem runQuota_cfg (k : Nat) (s : State) : (runQuota k s).cfg = s.cfg := by
  refine runQuota_induction (P := fun t => t.cfg = s.cfg) (fun t u ht hstep => ?_) k rfl
  obtain ⟨-, -, hcfg, -⟩ := stepLeavesHostStateAlone t u hstep
  exact hcfg.trans ht

/-! ## The load (R300, R301) -/

/-- A load of an image that fits builds the loaded state. -/
theorem reload_of_fits {rom : List Byte} (s : State) (v : Variant) (h : rom.length ≤ 3584) :
    s.reload v (some rom) = loadedState { s.cfg with variant := v } s.draws rom := by
  have hfits : romFits rom = true := decide_eq_true h
  simp only [State.reload, load, hfits, if_true]

/-- A load of an image that does not fit leaves the state. -/
theorem reload_of_too_large {rom : List Byte} (s : State) (v : Variant) (h : 3584 < rom.length) :
    s.reload v (some rom) = s := by
  have hfits : romFits rom = false := decide_eq_false (Nat.not_le.2 h)
  simp [State.reload, load, hfits]

/-- What a load can do: build the loaded state of an image that fits, or nothing. -/
theorem reload_cases (s : State) (v : Variant) (src : Option (List Byte)) : s.reload v src = s ∨
    ∃ rom, rom.length ≤ 3584 ∧ s.reload v src = loadedState { s.cfg with variant := v } s.draws rom := by
  cases src with
  | none => exact .inl rfl
  | some rom =>
    rcases Nat.lt_or_ge 3584 rom.length with h | h
    · exact .inl (reload_of_too_large s v h)
    · exact .inr ⟨rom, h, reload_of_fits s v h⟩

/-- Settles O57: steps, the timer update and the exchange leave the configuration, and a load writes the variant. -/
theorem configurationIsFixedBetweenLoads : Obligations.ConfigurationIsFixedBetweenLoads := by
  unfold Obligations.ConfigurationIsFixedBetweenLoads
  refine fun s => ⟨fun e => ?_, fun a ha => ?_, fun v src => ?_⟩
  · calc (s.frameTick e).1.cfg
      _ = (runQuota s.cfg.ipf s).timerUpdate.cfg := exchange_cfg _ e
      _ = s.cfg := by rw [timerUpdate_cfg, runQuota_cfg]
  · cases a with
    | load v src => exact absurd rfl (ha v src)
    | timerUpdate => exact timerUpdate_cfg s
    | _ => rfl
  · change (s.reload v src).cfg = _ ∨ (s.reload v src).cfg = _
    rcases reload_cases s v src with h | ⟨rom, -, h⟩
    · rw [h]
      exact .inl rfl
    · rw [h]
      exact .inr rfl

/-- The loaded state meets the invariant. -/
theorem loadedState_inv {cfg : Config} {draws : Nat} {rom : List Byte} (hcfg : cfg.WellFormed = true)
    (hrom : rom.length ≤ 3584) : (loadedState cfg draws rom).Inv := by
  constructor
  case config => exact hcfg
  case memory => exact romCells_wf rom romBase (Nat.add_le_add_left hrom romBase)
  case depth => exact Nat.zero_le _
  case pcBound => exact (by decide : (0x200 : Addr).toNat ≤ 0x10FE)
  case stackBound => exact fun j hj => absurd hj (Nat.not_lt_zero j)
  case faultPlace => exact fun r hr => nomatch hr

/-- Settles O54: a load builds a state within the invariant, and the other actions leave all it speaks of. -/
theorem hostActionsKeepTheInvariant : Obligations.HostActionsKeepTheInvariant := by
  unfold Obligations.HostActionsKeepTheInvariant
  intro s a hinv
  cases a with
  | load v src =>
    change (s.reload v src).Inv
    rcases reload_cases s v src with h | ⟨rom, hrom, h⟩
    · rw [h]
      exact hinv
    · rw [h]
      exact loadedState_inv hinv.config hrom
  | timerUpdate =>
    change s.timerUpdate.Inv
    cases hf : s.fault with
    | some r => exact (timerUpdate_of_fault hf).symm ▸ hinv
    | none =>
      rw [timerUpdate_of_none hf]
      exact hinv.congr rfl rfl rfl rfl hinv.pcBound hinv.faultPlace
  | keyWrite k pressed => exact hinv.congr rfl rfl rfl rfl hinv.pcBound hinv.faultPlace
  | render => exact hinv.congr rfl rfl rfl rfl hinv.pcBound hinv.faultPlace
  | audio => exact hinv
  | cancel => exact hinv

/-- Placed ROM bytes read back from their address on, and every other address reads as unlisted. -/
theorem Memory.read_romCells (font : Vector Byte 80) (rom : List Byte) (a c : Nat) :
    Memory.read font (romCells font a rom) c =
      if c < a then Memory.unlisted font c else rom[c - a]?.getD (Memory.unlisted font c) := by
  induction rom generalizing a with
  | nil => simp [romCells, Memory.read]
  | cons b rom ih =>
    have hread : Memory.read font (romCells font a (b :: rom)) c =
        if a = c then b else Memory.read font (romCells font (a + 1) rom) c := by
      rw [romCells]
      split
      · next hb =>
        by_cases hac : a = c
        · subst hac
          rw [if_pos rfl, ih, if_pos (Nat.lt_succ_self a), hb]
        · rw [if_neg hac]
      · rfl
    rw [hread, ih]
    rcases Nat.lt_trichotomy c a with hc | rfl | hc
    · rw [if_neg (by omega), if_pos (by omega), if_pos hc]
    · simp
    · obtain ⟨k, rfl⟩ : ∃ k, c = a + 1 + k := ⟨c - (a + 1), by omega⟩
      rw [if_neg (by omega), if_neg (by omega), if_neg (by omega), Nat.add_sub_cancel_left,
        show a + 1 + k - a = k + 1 by omega, List.getElem?_cons_succ]

theorem Memory.unlisted_font {font : Vector Byte 80} {a : Nat} (h : a < 80) : Memory.unlisted font a = font[a] :=
  dif_pos h

theorem Memory.unlisted_zero {font : Vector Byte 80} {a : Nat} (h : 80 ≤ a) : Memory.unlisted font a = 0 :=
  dif_neg (Nat.not_lt.2 h)

/-- Settles O55: the loaded state is the reset state but for the three fields, and its memory is the ROM over the font. -/
theorem loadBuildsTheResetState : Obligations.LoadBuildsTheResetState := by
  unfold Obligations.LoadBuildsTheResetState
  refine fun s v rom => ⟨fun hrom => ?_, fun hrom => reload_of_too_large s v hrom, rfl⟩
  rw [reload_of_fits s v hrom]
  have hread := Memory.read_romCells s.cfg.font rom 512
  refine ⟨fun k hk => (hread _).trans ?_, fun a ha => (hread a).trans ?_, fun a hlow hout => (hread a).trans ?_, rfl⟩
  · rw [if_neg (by omega), Nat.add_sub_cancel_left, List.getD_eq_getElem?_getD, List.getElem?_eq_getElem hk]
    rfl
  · rw [if_pos (by omega), Memory.unlisted_font ha]
  · rw [Memory.unlisted_zero hlow]
    split
    · rfl
    · rw [List.getElem?_eq_none (by omega)]
      rfl

/-- Settles O56: memory lists nothing, and every other component is written out in the reset state. -/
theorem resetHoldsTheLoadValues : Obligations.ResetHoldsTheLoadValues := by
  unfold Obligations.ResetHoldsTheLoadValues
  refine ⟨fun a ha => Memory.unlisted_font ha, fun a ha => Memory.unlisted_zero ha, fun r => ?_, rfl, rfl, rfl, fun j => ?_,
    fun y x => Display.pixel_blank y x, fun k => ?_, rfl, rfl, rfl, rfl, rfl, rfl⟩
  · exact Vector.getElem_replicate r.isLt
  · simp only [State.stackEntry, State.reset, Vector.getElem?_replicate]
    split <;> rfl
  · exact Vector.getElem_replicate k.isLt

end Sys2Proof.Machine
